-- ==== Sys2Proof/Word.lean ====
section
/-! DEFINITION. The word types of the TK24 and their plainest arithmetic (R38, R49). -/

namespace Sys2Proof

/-- A scalar register, an address (R38). -/
abbrev Word := BitVec 64

/-- One 32-bit lane element (R38). -/
abbrev Lane := BitVec 32

/-- A byte of memory. -/
abbrev Byte := BitVec 8

/-- A grade or a grade tag, 0 SKETCH to 3 GEODETIC (R258). -/
abbrev Grade := BitVec 2

/-- One bit per lane; bits at or above the wave width are zero (R38). -/
abbrev LaneMask := BitVec 128

/-- A scalar register number. -/
abbrev SReg := BitVec 6

/-- A vector register number. -/
abbrev VReg := BitVec 7

/-- An 8-bit source code (R76). -/
abbrev Src := BitVec 8

/-- The smaller of two grades. -/
def Grade.min (a b : Grade) : Grade := if a.toNat ≤ b.toNat then a else b

end Sys2Proof
end

