-- ==== Sys2Proof/Syntax.lean ====
section
/-! DEFINITION. The instructions and steps of the TK24: one constructor per row of the opcode table.
The rows with a rule of R73 to R94's encodings are the wave instructions, those of R392 (their names begin with c)
the Compass instructions, the rest the steps of the other agents, whose arguments are what arrives from outside. -/

namespace Sys2Proof

/-- The modifier word of a vector instruction, without its zero bits [9:0] (R78). -/
structure ModWord where
  sat   : BitVec 2
  nega  : Bool
  negb  : Bool
  absa  : Bool
  absb  : Bool
  scale : BitVec 5
  rnd   : BitVec 3
  srcc  : Src
  deriving DecidableEq, Repr

/-- The memory word of a vector memory instruction (R80). -/
structure MemWord where
  disp  : BitVec 16
  scope : BitVec 3
  ord   : BitVec 2
  hint  : BitVec 2
  ty    : BitVec 4
  atop  : BitVec 5
  deriving DecidableEq, Repr

/-- What an access needs of a leaf (R204). -/
inductive Access where
  | load | store | atomic | fetch
  deriving DecidableEq, Repr

/-- The apertures of a PCIe function (R378). -/
inductive Bar where
  | bar0 | bar2
  deriving DecidableEq, Repr

/-- A doorbell page: that of a PCIe function, or that of a guest's virtual device (R385). -/
inductive DoorbellPage where
  | function (fn : Nat)
  | guest (vd : Nat)
  deriving DecidableEq, Repr

/-- A byte offset in an aperture of a PCIe function (R378). -/
structure BarPlace where
  bar : Bar
  off : Nat
  deriving DecidableEq, Repr

/-- A doorbell: a byte offset in a doorbell page (R385). -/
structure Doorbell where
  page : DoorbellPage
  off  : Nat
  deriving DecidableEq, Repr

/-- What a RoCE request names: the Ethernet port through which it arrives, and a physical address (R379). -/
structure RocePlace where
  port : Nat
  pa   : Nat
  deriving DecidableEq, Repr

/-- A host access (R378). -/
inductive HostAccess where
  | read (n : Nat)
  | write (bytes : List Byte)
  deriving DecidableEq, Repr

/-- A RoCE request of another module (R379). -/
inductive RoceRequest where
  | write (bytes : List Byte)
  | read (n : Nat)
  | fetchAdd (v : Word)
  | cas (compare swap : Word)
  | send (socket : Nat) (bytes : List Byte)
  deriving DecidableEq, Repr

/-- A unit that Dawn can fence (R405). -/
inductive FenceUnit where
  | core (die core : Nat)
  | die (die : Nat)
  | bank (stack bank : Nat)
  | cxlPort (port : Nat)
  | ethPort (port : Nat)
  deriving DecidableEq, Repr

/-- A housekeeping register without behaviour of its own (R403). -/
inductive HkReg where
  | rtbase | rtq
  deriving DecidableEq, Repr

/-- One constructor per row of the opcode table: the wave and Compass instructions, the steps that wait for the outside,
those of the module's own agents, and last, whatever their kind, the rows without operands. -/
inductive Instr where
  | sadd (d : SReg) (a : SReg) (b : SReg)
  | ssub (d : SReg) (a : SReg) (b : SReg)
  | smul (d : SReg) (a : SReg) (b : SReg)
  | smulh (d : SReg) (a : SReg) (b : SReg)
  | smulhz (d : SReg) (a : SReg) (b : SReg)
  | sdiv (d : SReg) (a : SReg) (b : SReg)
  | sdivz (d : SReg) (a : SReg) (b : SReg)
  | srem (d : SReg) (a : SReg) (b : SReg)
  | sremz (d : SReg) (a : SReg) (b : SReg)
  | sand (d : SReg) (a : SReg) (b : SReg)
  | sor (d : SReg) (a : SReg) (b : SReg)
  | sxor (d : SReg) (a : SReg) (b : SReg)
  | sshl (d : SReg) (a : SReg) (b : SReg)
  | sshr (d : SReg) (a : SReg) (b : SReg)
  | ssra (d : SReg) (a : SReg) (b : SReg)
  | srol (d : SReg) (a : SReg) (b : SReg)
  | smin (d : SReg) (a : SReg) (b : SReg)
  | smax (d : SReg) (a : SReg) (b : SReg)
  | sminz (d : SReg) (a : SReg) (b : SReg)
  | smaxz (d : SReg) (a : SReg) (b : SReg)
  | sclz (d : SReg) (a : SReg)
  | spopc (d : SReg) (a : SReg)
  | sbfx (d : SReg) (a : SReg) (b : SReg)
  | sbfi (d : SReg) (a : SReg) (b : SReg)
  | ssel (d : SReg) (a : SReg) (b : SReg)
  | scmp (a : SReg) (b : SReg)
  | jmpr (a : SReg)
  | ret (a : SReg)
  | maskget (d : SReg)
  | maskset (a : SReg)
  | mand (a : SReg)
  | mandn (a : SReg)
  | mor (a : SReg)
  | mpopc (d : SReg)
  | saddi (d : SReg) (a : SReg) (i : BitVec 13)
  | scmpi (a : SReg) (i : BitVec 13)
  | sandi (d : SReg) (a : SReg) (i : BitVec 13)
  | sori (d : SReg) (a : SReg) (i : BitVec 13)
  | sxori (d : SReg) (a : SReg) (i : BitVec 13)
  | sshli (d : SReg) (a : SReg) (i : BitVec 6)
  | sshri (d : SReg) (a : SReg) (i : BitVec 6)
  | ssrai (d : SReg) (a : SReg) (i : BitVec 6)
  | slui (d : SReg) (i : BitVec 19)
  | slea (d : SReg) (a : SReg) (b : SReg) (h : BitVec 3)
  | br (o : BitVec 25)
  | call (o : BitVec 25)
  | bc (c : BitVec 4) (o : BitVec 15)
  | bmz (o : BitVec 15)
  | bmnz (o : BitVec 15)
  | calli (d : SReg) (v : BitVec 7)
  | srd (d : SReg) (n : BitVec 12)
  | swr (a : SReg) (n : BitVec 12)
  | sldB (d : SReg) (a : SReg) (i : BitVec 13)
  | sldH (d : SReg) (a : SReg) (i : BitVec 13)
  | sldW (d : SReg) (a : SReg) (i : BitVec 13)
  | sldD (d : SReg) (a : SReg) (i : BitVec 13)
  | sstB (d : SReg) (a : SReg) (i : BitVec 13)
  | sstH (d : SReg) (a : SReg) (i : BitVec 13)
  | sstW (d : SReg) (a : SReg) (i : BitVec 13)
  | sstD (d : SReg) (a : SReg) (i : BitVec 13)
  | split (a : SReg) (o : BitVec 15)
  | evbind (k : BitVec 4) (a : SReg) (o : BitVec 15)
  | waitany (d : SReg) (a : SReg)
  | join (a : SReg)
  | launch (a : SReg)
  | carve (a : SReg) (b : SReg)
  | nbarArv (a : SReg) (k : BitVec 4)
  | nbarWt (k : BitVec 4)
  | mbxSend (a : SReg) (k : BitVec 4)
  | mbxSendRel (a : SReg) (k : BitVec 4)
  | evmask (d : SReg) (a : SReg)
  | evpoll (d : SReg)
  | evclr (a : SReg)
  | fence (s : BitVec 3)
  | fenceAcq (s : BitVec 3)
  | fenceRel (s : BitVec 3)
  | racq (a : SReg) (s : BitVec 3)
  | pref (a : SReg)
  | cflush (a : SReg) (b : SReg)
  | cinv (a : SReg) (b : SReg)
  | mscpin (d : SReg) (a : SReg) (b : SReg)
  | mscunpin (a : SReg)
  | satom (d : SReg) (a : SReg) (b : SReg) (o : BitVec 4) (s : BitVec 3)
  | satomAcq (d : SReg) (a : SReg) (b : SReg) (o : BitVec 4) (s : BitVec 3)
  | satomRel (d : SReg) (a : SReg) (b : SReg) (o : BitVec 4) (s : BitVec 3)
  | satomAcqrel (d : SReg) (a : SReg) (b : SReg) (o : BitVec 4) (s : BitVec 3)
  | xcopy (d : SReg) (a : SReg) (r : Bool)
  | xgath (d : SReg) (a : SReg) (r : Bool)
  | xred (d : SReg) (a : SReg) (r : Bool)
  | xfill (d : SReg) (a : SReg) (r : Bool)
  | bclose (d : SReg) (c : BitVec 2)
  | bwait (a : SReg) (c : BitVec 2)
  | cbinit (a : SReg) (k : BitVec 3)
  | cbacq (d : SReg) (k : BitVec 3)
  | cbcommit (a : SReg) (k : BitVec 3)
  | cbwait (a : SReg) (k : BitVec 3)
  | cbrel (a : SReg) (k : BitVec 3)
  | mma (f : SReg) (a : SReg) (k : BitVec 6)
  | mmaP (f : SReg) (a : SReg) (k : BitVec 6)
  | mzero (k : BitVec 6)
  | nbzero (d : SReg) (a : SReg) (r : Bool)
  | nbcopy (d : SReg) (a : SReg) (r : Bool)
  | nbaxpy (d : SReg) (a : SReg) (r : Bool)
  | nbdot (d : SReg) (a : SReg) (r : Bool)
  | nbscal (d : SReg) (a : SReg) (r : Bool)
  | xar (d : SReg) (a : SReg) (r : Bool)
  | xag (d : SReg) (a : SReg) (r : Bool)
  | xrs (d : SReg) (a : SReg) (r : Bool)
  | xbcst (d : SReg) (a : SReg) (r : Bool)
  | trap (c : BitVec 10)
  | sysc (c : BitVec 10)
  | brk (c : BitVec 10)
  | causeclr (b : SReg)
  | dictionaryParcel (i : BitVec 10)
  | vadd (m : Option ModWord) (k : Bool) (d : VReg) (a : Src) (b : Src)
  | vsub (m : Option ModWord) (k : Bool) (d : VReg) (a : Src) (b : Src)
  | vmul (m : Option ModWord) (k : Bool) (d : VReg) (a : Src) (b : Src)
  | vmulhI32 (m : Option ModWord) (k : Bool) (d : VReg) (a : Src) (b : Src)
  | vmulhZ32 (m : Option ModWord) (k : Bool) (d : VReg) (a : Src) (b : Src)
  | vmad (m : Option ModWord) (k : Bool) (d : VReg) (a : Src) (b : Src)
  | vminI32 (m : Option ModWord) (k : Bool) (d : VReg) (a : Src) (b : Src)
  | vminZ32 (m : Option ModWord) (k : Bool) (d : VReg) (a : Src) (b : Src)
  | vmaxI32 (m : Option ModWord) (k : Bool) (d : VReg) (a : Src) (b : Src)
  | vmaxZ32 (m : Option ModWord) (k : Bool) (d : VReg) (a : Src) (b : Src)
  | vand (m : Option ModWord) (k : Bool) (d : VReg) (a : Src) (b : Src)
  | vor (m : Option ModWord) (k : Bool) (d : VReg) (a : Src) (b : Src)
  | vxor (m : Option ModWord) (k : Bool) (d : VReg) (a : Src) (b : Src)
  | vshl (m : Option ModWord) (k : Bool) (d : VReg) (a : Src) (b : Src)
  | vshr (m : Option ModWord) (k : Bool) (d : VReg) (a : Src) (b : Src)
  | vsra (m : Option ModWord) (k : Bool) (d : VReg) (a : Src) (b : Src)
  | vshrr (m : Option ModWord) (k : Bool) (d : VReg) (a : Src) (b : Src)
  | vsel (m : Option ModWord) (k : Bool) (d : VReg) (a : Src) (b : Src)
  | vcmpI32 (m : Option ModWord) (c : BitVec 3) (q : BitVec 4) (a : Src) (b : Src)
  | vcmpZ32 (m : Option ModWord) (c : BitVec 3) (q : BitVec 4) (a : Src) (b : Src)
  | vadd2I16 (m : Option ModWord) (k : Bool) (d : VReg) (a : Src) (b : Src)
  | vsub2I16 (m : Option ModWord) (k : Bool) (d : VReg) (a : Src) (b : Src)
  | vmac2I16 (m : Option ModWord) (k : Bool) (d : VReg) (a : Src) (b : Src)
  | vaddVi (m : Option ModWord) (k : Bool) (d : VReg) (a : Src) (i : BitVec 8)
  | vandVi (m : Option ModWord) (k : Bool) (d : VReg) (a : Src) (i : BitVec 8)
  | vorVi (m : Option ModWord) (k : Bool) (d : VReg) (a : Src) (i : BitVec 8)
  | vxorVi (m : Option ModWord) (k : Bool) (d : VReg) (a : Src) (i : BitVec 8)
  | vshlVi (m : Option ModWord) (k : Bool) (d : VReg) (a : Src) (i : BitVec 5)
  | vshrVi (m : Option ModWord) (k : Bool) (d : VReg) (a : Src) (i : BitVec 5)
  | vsraVi (m : Option ModWord) (k : Bool) (d : VReg) (a : Src) (i : BitVec 5)
  | vshrrVi (m : Option ModWord) (k : Bool) (d : VReg) (a : Src) (i : BitVec 5)
  | vfadd (m : Option ModWord) (k : Bool) (d : VReg) (a : Src) (b : Src)
  | vfsub (m : Option ModWord) (k : Bool) (d : VReg) (a : Src) (b : Src)
  | vfmul (m : Option ModWord) (k : Bool) (d : VReg) (a : Src) (b : Src)
  | vfma (m : Option ModWord) (k : Bool) (d : VReg) (a : Src) (b : Src)
  | vfmin (m : Option ModWord) (k : Bool) (d : VReg) (a : Src) (b : Src)
  | vfmax (m : Option ModWord) (k : Bool) (d : VReg) (a : Src) (b : Src)
  | vfcmp (m : Option ModWord) (c : BitVec 3) (q : BitVec 4) (a : Src) (b : Src)
  | vrcp (m : Option ModWord) (k : Bool) (d : VReg) (a : Src)
  | vrsq (m : Option ModWord) (k : Bool) (d : VReg) (a : Src)
  | vsqrt (m : Option ModWord) (k : Bool) (d : VReg) (a : Src)
  | vfract (m : Option ModWord) (k : Bool) (d : VReg) (a : Src)
  | vfloor (m : Option ModWord) (k : Bool) (d : VReg) (a : Src)
  | vrrt (m : Option ModWord) (k : Bool) (d : VReg) (a : Src)
  | vsint (m : Option ModWord) (k : Bool) (d : VReg) (a : Src)
  | vcost (m : Option ModWord) (k : Bool) (d : VReg) (a : Src)
  | vexp2 (m : Option ModWord) (k : Bool) (d : VReg) (a : Src)
  | vlog2 (m : Option ModWord) (k : Bool) (d : VReg) (a : Src)
  | vhadd2Bf16 (m : Option ModWord) (k : Bool) (d : VReg) (a : Src) (b : Src)
  | vhadd2F16 (m : Option ModWord) (k : Bool) (d : VReg) (a : Src) (b : Src)
  | vhmul2Bf16 (m : Option ModWord) (k : Bool) (d : VReg) (a : Src) (b : Src)
  | vhmul2F16 (m : Option ModWord) (k : Bool) (d : VReg) (a : Src) (b : Src)
  | vhfma2Bf16 (m : Option ModWord) (k : Bool) (d : VReg) (a : Src) (b : Src)
  | vhfma2F16 (m : Option ModWord) (k : Bool) (d : VReg) (a : Src) (b : Src)
  | vdot2Bf16 (m : Option ModWord) (k : Bool) (d : VReg) (a : Src) (b : Src)
  | vdot2F16 (m : Option ModWord) (k : Bool) (d : VReg) (a : Src) (b : Src)
  | vcvt (m : Option ModWord) (k : Bool) (d : VReg) (a : Src) (e : BitVec 4) (s : BitVec 4)
  | vslideUp (m : Option ModWord) (k : Bool) (d : VReg) (a : Src) (u : BitVec 1) (n : BitVec 7)
  | vslideDn (m : Option ModWord) (k : Bool) (d : VReg) (a : Src) (u : BitVec 1) (n : BitVec 7)
  | vswapp (k : Bool) (d : VReg) (a : Src)
  | vperm (k : Bool) (d : VReg) (a : Src) (b : Src)
  | vbcast (k : Bool) (d : VReg) (a : Src) (b : Src)
  | vred (m : Option ModWord) (k : Bool) (d : VReg) (a : Src) (o : BitVec 4) (f : BitVec 4)
  | vldf (m : Option MemWord) (d : VReg) (a : Src)
  | vstf (m : Option MemWord) (d : VReg) (a : Src)
  | vld (m : Option MemWord) (d : VReg) (a : Src) (n : BitVec 8)
  | vst (m : Option MemWord) (d : VReg) (a : Src) (n : BitVec 8)
  | vlds (m : Option MemWord) (d : VReg) (a : Src) (w : BitVec 1)
  | vsts (m : Option MemWord) (d : VReg) (a : Src) (w : BitVec 1)
  | vatom (m : Option MemWord) (d : VReg) (a : Src) (n : BitVec 8)
  | mrd (k : Bool) (d : VReg) (a : Src) (t : BitVec 6)
  | mwr (d : VReg) (a : Src) (t : BitVec 6)
  | grtag (k : Bool) (d : VReg) (a : Src) (g : BitVec 2)
  | grchk (a : Src)
  | grdil (k : Bool) (d : VReg) (a : Src) (g : BitVec 2)
  | grlim (g : BitVec 2)
  | cLdi (d : BitVec 4) (i : BitVec 14)
  | cLui (d : BitVec 4) (i : BitVec 14)
  | cAdd (d : BitVec 4) (a : BitVec 4) (b : BitVec 4)
  | cSub (d : BitVec 4) (a : BitVec 4) (b : BitVec 4)
  | cMul (d : BitVec 4) (a : BitVec 4) (b : BitVec 4)
  | cAnd (d : BitVec 4) (a : BitVec 4) (b : BitVec 4)
  | cOr (d : BitVec 4) (a : BitVec 4) (b : BitVec 4)
  | cXor (d : BitVec 4) (a : BitVec 4) (b : BitVec 4)
  | cShl (d : BitVec 4) (a : BitVec 4) (b : BitVec 4)
  | cShr (d : BitVec 4) (a : BitVec 4) (b : BitVec 4)
  | cMin (d : BitVec 4) (a : BitVec 4) (b : BitVec 4)
  | cMax (d : BitVec 4) (a : BitVec 4) (b : BitVec 4)
  | cSlt (d : BitVec 4) (a : BitVec 4) (b : BitVec 4)
  | cAddi (d : BitVec 4) (a : BitVec 4) (i : BitVec 14)
  | cSel (d : BitVec 4) (a : BitVec 4) (b : BitVec 4)
  | cBeq (a : BitVec 4) (b : BitVec 4) (k : BitVec 14)
  | cBne (a : BitVec 4) (b : BitVec 4) (k : BitVec 14)
  | cBlt (a : BitVec 4) (b : BitVec 4) (k : BitVec 14)
  | cBge (a : BitVec 4) (b : BitVec 4) (k : BitVec 14)
  | cJmp (k : BitVec 14)
  | cLoopn (n : BitVec 6) (l : BitVec 8)
  | cLdq (d : BitVec 4) (a : BitVec 4) (f : BitVec 14)
  | cLde (d : BitVec 4) (f : BitVec 14)
  | cLds (d : BitVec 4) (k : BitVec 14)
  | cSts (a : BitVec 4) (k : BitVec 14)
  | cRetq (a : BitVec 4)
  | pageFaultResolution (w f : Nat) (mapped : Bool)
  | engineFaultResolution (op : Nat) (mapped : Bool)
  | matrixOpRetire (op : Nat) (mismatches : Nat)
  | peerTimeout (op : Nat)
  | promotionRequest (line : Nat) (scope : BitVec 3)
  | pageWalk (vd die : Nat) (va : Word) (acc : Access)
  | syscCompletion (call : Nat) (results : List Word) (writes : List (Nat × Byte))
  | cxlLinkDown (port : Nat)
  | cxlCompletionTimeout (port : Nat)
  | hostAccess (fn : Nat) (place : BarPlace) (acc : HostAccess)
  | roceRequest (place : RocePlace) (req : RoceRequest)
  | doorbellWrite (bell : Doorbell) (tail : BitVec 32)
  | policyPick (vd pol die : Nat) (clock : Word)
  | timeSliceEnd (g : Nat) (held clock : Word)
  | drainWatchdogExpire (g : Nat)
  | urgentPreemption (nb : Nat)
  | contextSave (nb : Nat) (image : Nat)
  | contextRestore (nb : Nat)
  | hbmTrainingComplete (die : Nat)
  | heartbeatMiss (cp : Nat)
  | dieReset (die : Nat) (answers : Bool)
  | unitFence (u : FenceUnit)
  | retraceReplay (entry : Nat)
  | housekeepingRegisterWrite (reg : HkReg) (value : Nat)
  | dieReturnToService (die : Nat)
  | cxlPortEnumeration (port size : Nat)
  | cxlWindowRemap (port size : Nat)
  | debuggerResume (w f : Nat) (pc : Word) (mask : LaneMask)
  | heartbeat (cp : Nat)
  | fragmentArrive (w f : Nat)
  | joinBoundExpire (w r : Nat)
  | carveComplete (t : Nat)
  | waitanyWake (w : Nat)
  | deadlineFire (w : Nat) (k : BitVec 4)
  | dispatchNeighbourhood (g : Nat)
  | teamRetire (t : Nat)
  | gridRetire (g : Nat)
  | engineContextStart (die : Nat)
  | copyOperationComplete (op : Nat)
  | matrixOpExecute (op : Nat)
  | mzeroExecute (op : Nat)
  | tileInterlockRelease (t : Nat) (k : BitVec 6)
  | bankCommandIntake (stack : Nat)
  | bankPartExecute (op bank : Nat)
  | bankCommandComplete (op : Nat)
  | bfenceResume (w f : Nat)
  | collectivePartComplete (op : Nat)
  | memoryRequestService (die : Nat)
  | fadePass (die : Nat)
  | d2dMessageReceive (link : Nat) (staged : Bool)
  | d2dRetry (link : Nat)
  | queueLaunch (q : Nat)
  | copy (q : Nat)
  | coll (q : Nat)
  | depwait (q : Nat)
  | depwaitRecheck (q : Nat)
  | post (q : Nat)
  | vdset (q : Nat)
  | bind (q : Nat)
  | unbind (q : Nat)
  | shoot (q : Nat)
  | polload (q : Nat)
  | fullServiceSwitch (die : Nat)
  | yield
  | endw
  | bar
  | rfence
  | bfence
  | tfence
  | tret
  | cNop
  | cRetn
  | powerOn
  | attestationRequest
  deriving DecidableEq, Repr

end Sys2Proof
end

