-- ==== Sys2Proof/Config.lean ====
section
/-! DEFINITION. What the implementation fixes and the spec leaves open: constants without a body, so that no
proof can see a value of them, and the module's figures (R1). -/

namespace Sys2Proof.Config

/-- A free word, numbered by the counter of the state (log 5). -/
opaque freeWord : Nat → Word

/-- A free choice among alternatives that the spec allows, numbered by the counter of the state (log 5). -/
opaque freeChoice : Nat → Nat

/-- The functions of R70. -/
inductive Fn where
  | rcp | rsq | sin | cos | exp2 | log2
  deriving DecidableEq, Repr

/-- The fixed function of its input bits that an approximated function is (R72), its bits open (log 6). -/
opaque approx : Fn → Lane → Lane

/-- The owner that a queue belongs to: no field of a control block gives it (log 7). -/
opaque queueOwner : Nat → Byte

/-- The module's text, as base and length, that an entry address belongs to: no field of a launch packet gives it
(R43, log 14). -/
opaque moduleText : Word → Word × Nat

/-- The Reed–Solomon check bytes of a line's data, of a number: the code's field and generator are not given (R258,
log 30). -/
opaque checkBytes : Nat → List (BitVec 8) → List (BitVec 8)

/-- The signature of the measurements under the attestation key (R398; log 8). -/
opaque attest : List (List Byte) → List Byte

/-- The bytes of an entry of the Retrace log: no rule gives their layout (R403; log 62). -/
opaque logBytes : List Word → List Byte

/-- The size in bytes of the Retrace log ring: no rule gives it (R403; log 62). -/
opaque logRing : Nat

/-- The bytes that a context image holds, in the order internal to the part, for save number n (R355; log 9). -/
opaque contextBytes : Nat → List Byte

/-- The exponent code lengths that the writer of a chunk chooses (R356; log 9). -/
opaque codeLengths : List Byte → List Nat

/-- Compute dies of the module (R1). -/
def dies : Nat := 24

/-- Cores of a die (R1). -/
def coresPerDie : Nat := 48

/-- Instructions a policy program may hold (R392). -/
def policyLength : Nat := 256

/-- Steps after which a policy run stops (R393). -/
def policySteps : Nat := 4096

end Sys2Proof.Config
end

