-- ==== Sys2Proof/Machine/Tab.lean ====
section
/-! DEFINITION. Sparse tables: lists of (key, value) pairs with rising keys, and byte memories kept in one
canonical form: no byte listed that equals what an unlisted address reads as (log 1). -/

namespace Sys2Proof.Machine

/-- A sparse table with natural-number keys, strictly rising. -/
abbrev Tab (α : Type) := List (Nat × α)

namespace TabOps

/-- The value at a key. -/
def find? {α : Type} : Tab α → Nat → Option α
  | [], _ => none
  | (i, v) :: t, k => if i = k then some v else find? t k

/-- The value at a key, or a default. -/
def get {α : Type} (d : α) (t : Tab α) (k : Nat) : α := (find? t k).getD d

/-- The table with a key set. -/
def put {α : Type} : Tab α → Nat → α → Tab α
  | [], k, v => [(k, v)]
  | (i, u) :: t, k, v =>
    if k < i then (k, v) :: (i, u) :: t
    else if k = i then (k, v) :: t
    else (i, u) :: put t k v

/-- The table without a key. -/
def drop {α : Type} : Tab α → Nat → Tab α
  | [], _ => []
  | (i, u) :: t, k => if i = k then drop t k else (i, u) :: drop t k

/-- Every value changed by a function of its key. -/
def mapVals {α : Type} (g : Nat → α → α) : Tab α → Tab α
  | [] => []
  | (i, u) :: t => (i, g i u) :: mapVals g t

/-- The keys rise strictly, each above a bound. -/
def risesFrom {α : Type} : Nat → Tab α → Bool
  | _, [] => true
  | b, (i, _) :: t => decide (b ≤ i) && risesFrom (i + 1) t

/-- The keys rise strictly. -/
def rises {α : Type} (t : Tab α) : Bool := risesFrom 0 t

/-- A key above every key of the table. -/
def fresh {α : Type} : Tab α → Nat
  | [] => 0
  | (i, _) :: t => max (i + 1) (fresh t)

end TabOps

/-- A byte memory: the listed bytes; an unlisted address reads as 0 (log 1). -/
abbrev Mem := Tab Byte

namespace MemOps

/-- The byte at an address (log 1: an unlisted byte reads 0). -/
def read (m : Mem) (a : Nat) : Byte := TabOps.get 0 m a

/-- The memory with one byte written, in canonical form. -/
def write (m : Mem) (a : Nat) (b : Byte) : Mem := if b = 0 then TabOps.drop m a else TabOps.put m a b

/-- Bytes written from an address up. -/
def writeBytes (m : Mem) (a : Nat) : List Byte → Mem
  | [] => m
  | b :: bs => writeBytes (write m a b) (a + 1) bs

/-- n bytes from an address up. -/
def readBytes (m : Mem) (a : Nat) : Nat → List Byte
  | 0 => []
  | n + 1 => read m a :: readBytes m (a + 1) n

end MemOps

/-- The canonical form: keys strictly rising, no listed byte equal to what an unlisted one reads as. -/
def Memory.wf (m : Mem) : Bool := TabOps.rises m && m.all (fun c => decide (c.2 ≠ 0))

/-- The little-endian value of a byte list (R49). -/
def leValue : List Byte → Nat
  | [] => 0
  | b :: bs => b.toNat + 256 * leValue bs

/-- The n low bytes of a value, least significant first (R49). -/
def leBytes (v : Nat) : Nat → List Byte
  | 0 => []
  | n + 1 => BitVec.ofNat 8 v :: leBytes (v / 256) n

/-- n little-endian words of a byte list. -/
def wordsOf (bs : List Byte) (n : Nat) : List Word :=
  (List.range n).map (fun i => BitVec.ofNat 64 (leValue ((bs.drop (8 * i)).take 8)))

end Sys2Proof.Machine
end

