-- ==== Sys2Proof/Machine/State.lean ====
section
/-! DEFINITION. The state of the module as plain data: waves, teams, grids, cores, dies, memory, queues and
Dawn, with the values at power-on (R38, R44, R397). Values that are not the spec's carry a log number. -/

namespace Sys2Proof.Machine

/-- Why a step stops. Only the dispatch of a wave instruction or a Compass instruction with nothing to run it
raises one, and no step from State does: stopping is safe. -/
inductive Fault where
  /-- Raised by a wave instruction when `cur` names no running fragment; safe. -/
  | noFragment
  /-- Raised by a Compass instruction when no policy run is open; safe. -/
  | noPolicyRun
  deriving DecidableEq, Repr

/-- An instruction without a meaning. -/
inductive Refusal where
  /-- Raised by an arm of exec whose instruction has no meaning yet; safe. -/
  | notModelled (mnemonic : String)
  deriving DecidableEq, Repr

/-- The outcome of a step of this machine. -/
abbrev Out (σ : Type) := Host.Outcome σ Fault Refusal

/-! ### A wave (R38, R158) -/

/-- A scalar register with its grade tag (R38, R39). -/
structure SRegV where
  val : Word
  tag : Grade
  deriving DecidableEq, Repr

/-- A vector register or a latch: a lane list, a tag and a poison mask (R38, R39). -/
structure VRegV where
  lanes  : List Lane
  tag    : Grade
  poison : LaneMask
  deriving DecidableEq, Repr

/-- The queues into which a core's waves put their commands: of the copy engine, of the collective engine, and the intake
of a stack (R284, R326, R368). -/
inductive IssueQueue where
  | copy
  | coll
  | bank (stack : Nat)
  deriving DecidableEq, Repr

/-- What a fragment waits for (R163); a fragment that waits keeps its pc at the waiting instruction. -/
inductive Park where
  | ready
  | score (regs : List Nat)
  | queueFull (q : IssueQueue)
  | closeFull (cls : BitVec 2)
  | cbacq (k : BitVec 3)
  | pairBusy
  | joined
  | waitany (sd : SReg) (m : BitVec 16)
  | bar
  | nbar (k : BitVec 4) (phase : Nat)
  | carve (sp l1x : Word)
  | bwait (cls : BitVec 2) (n : BitVec 16)
  | cbwait (k : BitVec 3) (stage : BitVec 16)
  | bfence
  | tile (k : BitVec 6) (p : Nat)
  | tileReady (k : BitVec 6) (p : Nat)
  | sysc (call : Nat)
  | trapWait (causes tinfo : Word)
  | pageFault (causes tinfo : Word)
  | debugger (code : Word)
  | cxl (port : Nat) (va : Word)
  deriving DecidableEq, Repr

/-- A fragment entry of the split table (R158). `plen` is the length of the instruction it waits at, `waited` are the CXL
ports for whose data this instruction has waited (R351), `yielded` that it forgoes its turn (R166), `stalled` that an
operand of its next instruction is not there in this cycle (R129, R163). -/
structure Fragment where
  lanes  : LaneMask
  mask   : LaneMask
  pc     : Word
  rec?   : Option Nat
  park   : Park
  since  : Word
  wait   : Nat
  plen   : Nat
  waited : List Nat
  yielded : Bool
  stalled : Bool := false
  deriving DecidableEq, Repr

/-- What a record opened by CALLI adds (R107); `again` says that the deferred lanes are to evaluate their targets
(R108). -/
structure CallRec where
  callPc   : Word
  origMask : LaneMask
  deferred : LaneMask
  again    : Bool := false
  deriving DecidableEq, Repr

/-- A reconvergence record (R158 to R161). -/
structure Rec where
  addr     : Word
  expected : LaneMask
  arrived  : LaneMask
  call     : Option CallRec
  parent   : Option Nat
  first    : Option Word
  bound    : Word
  deriving DecidableEq, Repr

/-- The binding of an event slot (R174, R175): `stage` is the stage that a KIND 3 slot watches, `armed` that a
source that fires once has not fired. -/
structure Binding where
  kind     : BitVec 4
  cls      : BitVec 2
  arg      : BitVec 16
  stage    : BitVec 16
  armed    : Bool
  deadline : Option Word
  deriving DecidableEq, Repr

/-- A slot bound to nothing. -/
def Binding.none : Binding := { kind := 0, cls := 0, arg := 0, stage := 0, armed := false, deadline := Option.none }

/-- One class of batches (R294): the operations of each closed batch that have not completed. -/
structure Batch where
  cl     : BitVec 16
  dn     : BitVec 16
  opened : List Nat
  closed : List (Nat × List Nat)
  deriving DecidableEq, Repr

/-- Where a wave stands. -/
inductive WaveLife where
  | running | saved | ended
  deriving DecidableEq, Repr

/-- A fault of the hardware in one run of a repeated instruction: it inverts a bit of a lane's result (R271). -/
structure RunFault where
  run  : Nat
  lane : Nat
  bit  : Nat
  deriving DecidableEq, Repr

/-- A run of a repeated chain whose results stand apart from those of a run without a fault: its latches, the flags that
it raised, and whether GINJ struck it (R83, R270, R274). -/
structure RunAlt where
  run     : Nat
  latches : List VRegV
  flags   : BitVec 6
  armed   : Bool
  deriving DecidableEq, Repr

/-- A wave (R38). `latches` holds B0, B1, … of the open chain of fragment `chainFrag`; `alts` those of the repetitions
that stand apart (R83, R274), `chainDis` that the chain's disagreement is counted, `faults` what strikes the next repeated
instruction (R271), `doneRegs` the completion registers whose status word it has not read (R243). `egNext` is the grade
that GRLIM set and that holds from the end of its chain (R279). `tileBad` are the MTX batches with a poisoned retirement
that the wave has not observed, `tileOpen` says that its open batch has one (R311). `maskNew` are the slots, then not
pending, that the last EVMASK set, and `maskAt` is its cycle (R182). `tokScope` is, per slot, the widest
scope of the `.rel` tokens counted, 0 for none (R180). `stopAt` is CYCLE as the wave was stopped for a save, from which
its bounds and deadlines do not count (R158, R182). `marked` says that its end is known to the collective engines
(R374). -/
structure Wave where
  grid      : Nat
  nb        : Nat
  team      : Nat
  idx       : Nat
  width     : Nat
  life      : WaveLife
  handle    : BitVec 24
  issueDie  : Nat
  die       : Nat
  core      : Nat
  slot      : Nat
  nv        : Nat
  ns        : Nat
  launchG   : Grade
  sregs     : List SRegV
  vregs     : List VRegV
  latches   : List VRegV
  chainFrag : Nat
  chainDis  : Bool
  alts      : List RunAlt
  faults    : List RunFault := []
  doneRegs  : List Nat := []
  flg       : BitVec 4
  aflg      : BitVec 14
  gst       : Word
  egNext    : Option Grade
  cause     : Word
  tpc       : Word
  tmask     : LaneMask
  tinfo     : Word
  ilen      : BitVec 4
  inh       : Option Nat
  drain     : Bool
  evpend    : BitVec 16
  evmask    : BitVec 16
  maskNew   : BitVec 16 := 0
  maskAt    : Word := 0
  evv       : List Word
  binds     : List Binding
  counts    : List (BitVec 8)
  tokScope  : List (BitVec 3)
  evovf     : Bool
  frags     : List (Option Fragment)
  recs      : List (Option Rec)
  origin    : Option Word
  ginj      : Word
  batches   : List Batch
  tileBad   : List (BitVec 16)
  tileOpen  : Bool
  pendRegs  : List (Nat × Nat)
  nbarRec   : List (Option Nat)
  issued    : Nat
  stopAt    : Option Word := none
  marked    : Bool := false
  deriving DecidableEq, Repr

/-! ### A team (R149, R296, R303) -/

/-- What stands in the ordered queue of a tile half (R314). -/
inductive TileEntry where
  | op (id : Nat)
  | reader (w f : Nat)
  deriving DecidableEq, Repr

/-- A tile half: elements (key 128 r + c, an unlisted one is +0), tag, poison, origin word, queue (R303). -/
structure Tile where
  vals   : Tab Lane
  tag    : Grade
  poison : Bool
  origin : Word
  queue  : List TileEntry
  deriving DecidableEq, Repr

/-- A named barrier: phase number, and the count and arrivals of the open phase (R169). -/
structure NBar where
  phase : Nat
  open? : Option (Nat × Nat)
  deriving DecidableEq, Repr

/-- How an acquired stage stands (R299). -/
inductive CbCommit where
  | acquired
  | bound (wave : Nat) (n : BitVec 16)
  | full
  deriving DecidableEq, Repr

/-- A circular buffer (R296); `filled` names, for each stage that a bound commit filled, the wave that bound it (R180, R243). -/
structure Cb where
  base     : Nat
  size     : Nat
  nstg     : Nat
  ncons    : Nat
  acq      : BitVec 16
  com      : BitVec 16
  rel      : BitVec 16
  pending  : List CbCommit
  relCount : Nat
  filled   : Tab Nat := []
  deriving DecidableEq, Repr

/-- Where a team stands (R157); `held` at a drain point or stopped for a save (R352, R353). -/
inductive TeamLife where
  | running | held | saved | ended | retired
  deriving DecidableEq, Repr

/-- A team (R149). -/
structure Team where
  grid    : Nat
  nb      : Nat
  index   : Nat
  mapSlot : Nat
  life    : TeamLife
  die     : Nat
  core    : Nat
  waves   : List Nat
  spSize  : Nat
  l1x     : Nat
  sp      : Mem
  spTag   : Tab Grade
  spPois  : List Nat
  tiles   : List Tile
  nbars   : List NBar
  cbs     : List (Option Cb)
  deriving DecidableEq, Repr

/-! ### Grids and neighbourhoods (R151 to R154, R389) -/

/-- The fields of a launch packet (R389). -/
structure Packet where
  entry    : Word
  tvec     : Word
  gridX    : Nat
  gridY    : Nat
  gridZ    : Nat
  teamLanes : Nat
  widthC   : Nat
  producer : Nat
  grade    : Grade
  fuse     : Bool
  paired   : Bool
  nt       : Nat
  nv       : Nat
  ns       : Nat
  spu      : Nat
  l1xu     : Nat
  dictN    : Nat
  recN     : Nat
  map      : List Nat
  dict     : Word
  recA     : Word
  cpl      : Word
  notify   : Bool
  slot     : BitVec 4
  deriving DecidableEq, Repr

/-- Where a neighbourhood stands (R153, R353, R354). -/
inductive NbLife where
  | placed | stopping | saved | done
  deriving DecidableEq, Repr

/-- A neighbourhood with its placement, and its image when it is saved (R153, R355). -/
structure Nb where
  grid    : Nat
  index   : Nat
  life    : NbLife
  die     : Nat
  origin  : Nat
  teams   : List Nat
  image   : Option Nat
  imageLen : Nat
  saveNo  : Nat
  deriving DecidableEq, Repr

/-- Where a grid stands (R154, R345). -/
inductive GridLife where
  | waiting | running | stopping | retired
  deriving DecidableEq, Repr

/-- A grid (R149, R154). `asked` says how far the fault of its completion record is: 0 none, 1 offered to the kernel, 2
declined (R293, R389); `early` is the producer of an EARLY launch (R390), `fixed` the places of a replay,
`replay` the replay's number and the grid's number in it (R404), `logAt` the length of `writeLog` at its launch (R43),
`birth` the numbers of its LAUNCH: team, wave and fragment that launched it, and which of theirs it is (R404). -/
structure Grid where
  vd       : Nat
  owner    : Byte
  queue    : Option Nat
  parent   : Option Nat
  parentW  : Option Nat
  depth    : Nat
  packet   : Packet
  launchG  : Grade
  life     : GridLife
  nextNb   : Nat
  drain    : Bool
  early    : Option Nat
  fixed    : Option (List (Nat × Nat))
  replay   : Option (Nat × Nat)
  textBase : Word
  textLen  : Nat
  image    : Mem
  dict     : List Word
  state    : Nat
  cause    : Word
  tpc      : Word
  tinfo    : Word
  debugged : Bool
  asked    : Nat := 0
  logAt    : Nat := 0
  birth    : List Nat := []
  deriving DecidableEq, Repr

/-! ### Engine, matrix, bank and collective operations -/

/-- A copy command after its descriptor was read (R286); the snapshots are of memory as the operation starts. -/
structure CopyCmd where
  op     : Nat
  dst    : Word
  src    : Word
  rop    : Nat
  dspace : Nat
  sspace : Nat
  len    : Nat
  record : List Word
  descG  : Grade
  snap   : Mem
  spSnap : Tab Mem
  deriving DecidableEq, Repr

/-- An operand of a bank command: physical address, and the owner and grade of its page (R325). -/
structure BankArg where
  pa    : Nat
  owner : Nat
  grade : Grade
  deriving DecidableEq, Repr

/-- A bank command after its operands were translated (R325 to R327, R331). `xs` are the operands that it reads, `t` its
grade of origin, `toEnter` the banks whose queue has not taken its part yet, `toRead` and `toWrite` the banks of the
parts left, `snap` the bytes read, `checked` how many were checked before the first uncorrectable source line, which `bad`
holds with its operand, `code` how the command ends. -/
structure BankCmd where
  op    : Nat
  stack : Nat
  dst   : BankArg
  xs    : List BankArg
  alpha : Lane
  fmt   : Nat
  rows  : Nat
  t     : Grade
  lax   : Bool
  split : Bool
  toEnter : List Nat
  toRead  : List Nat
  toWrite : List Nat
  bad   : Option (Nat × BankArg)
  code  : Nat
  snap  : Mem
  checked : Nat := 0
  deriving DecidableEq, Repr

/-- A collective part (R367, R369): its device, group, number in the group, rank and the list of endpoints; `since` is
the cycle at which it began to wait, `snap` memory as it began. -/
structure CollCmd where
  op     : Nat
  dst    : Word
  src    : Word
  vd     : Nat
  group  : Nat
  rop    : Nat
  root   : Nat
  len    : Nat
  ranks  : List Word
  rank   : Nat
  seq    : Nat
  tmo    : Nat
  since  : Word
  snap   : Mem
  deriving DecidableEq, Repr

/-- One block of a rank's source as it was read: elements, smallest page grade, the CODE of an input that failed,
and the homes it came from, 100 for the CXL tier (R370, R372, R373). -/
structure CollBlock where
  vals  : List Nat
  grade : Grade
  code  : Nat
  homes : List Nat
  deriving DecidableEq, Repr

/-- What a rank brings to a collective operation: its descriptor's fields, the die of its part (none in another
module), and its source once it is read (R369, R370). -/
structure CollPart where
  op     : Nat
  len    : Nat
  rop    : Nat
  root   : Nat
  die    : Option Nat
  blocks : Option (List CollBlock)
  deriving DecidableEq, Repr

/-- A collective operation: the n-th of a group, its ranks' parts, and whether a peer was lost (R369, R374). -/
structure Round where
  vd    : Nat
  group : Nat
  seq   : Nat
  parts : Tab CollPart
  lost  : Bool
  deriving DecidableEq, Repr

/-- A captured matrix operation: formats, K, and the captured operands: rows of A in bytes, the registers of the B
quarters, the scales (R305, R309, R315). -/
structure MatCmd where
  paired : Bool
  half   : BitVec 6
  afmt   : Nat
  bfmt   : Nat
  k      : Nat
  a      : List (List Byte)
  b      : List (List (List Lane))
  width  : Nat
  ac     : Option (List (List Lane))
  bc     : Option (List Lane)
  aq     : Option (List (List (BitVec 4)))
  bq     : Option (List (List (BitVec 4)))
  tag    : Grade
  follower : Option Nat
  executed : Bool
  deriving DecidableEq, Repr

/-- What an operation does. -/
inductive OpBody where
  | copy (c : CopyCmd)
  | bank (c : BankCmd)
  | coll (c : CollCmd)
  | mma (c : MatCmd)
  | mzero (half : BitVec 6)
  deriving DecidableEq, Repr

/-- How far an operation has come (R284, R294). -/
inductive OpLife where
  | queued | running | done
  deriving DecidableEq, Repr

/-- An operation in flight or completed (R284, R291, R294). An operation of a queue has no wave (0); `fault` is the
CODE of an access that was offered to the kernel, 0 for none, or 16 plus the CODE with which the operation ends
(R293). `draw` is the choice by which it fails, if it does, which the log keeps (R291, R404), `context` and `moved` are its
engine's context and the beats that it has moved (R284), `shadow` is the replay that issued it (R404). `issueDie` is the die
from which PATH counts (R291, log 82), `lanes` are the lanes of the fragment that issued it, by which a replay knows it. -/
structure Op where
  body : OpBody
  wave : Nat
  grid : Nat
  team : Nat
  die  : Nat
  core : Nat
  vd   : Nat
  sd   : Option Nat
  cls  : BitVec 2
  eg   : Grade
  life : OpLife
  queue : Option Nat
  fault : Nat
  draw    : Nat := 0
  context : Nat := 0
  moved   : Nat := 0
  shadow  : Option Nat := none
  issueDie : Nat := 0
  lanes   : LaneMask := 0
  deriving DecidableEq, Repr

/-- A system call in progress (R348), with what of its wave outlives the wave: die, width, device, and the numbers of its
grid, team and wave, and the lanes of its fragment. `nth` counts it among the fragment's logged calls, `logged` are the results that a replay gives it and
`shadow` is that replay (R403, R404). -/
structure Call where
  wave  : Nat
  frag  : Nat
  code  : BitVec 10
  lanes : LaneMask
  args  : List (List Word)
  sync  : Bool
  area  : Word
  die   : Nat
  width : Nat
  vd    : Nat
  grid  : Nat
  team  : Nat
  idx   : Nat
  nth   : Nat := 0
  logged : Option (List Word) := none
  shadow : Option Nat := none
  fragLanes : LaneMask := 0
  deriving DecidableEq, Repr

/-! ### Cores, dies and memory (R187 to R209) -/

/-- An L1 line (R189). `team` is the team that filled it, for PROT (R191), `way` its way in its set (R188). -/
structure L1Line where
  data  : List Byte
  valid : BitVec 8
  dirty : BitVec 128
  sc    : BitVec 3
  prot  : Bool
  team  : Nat
  way   : Nat := 0
  deriving DecidableEq, Repr

/-- A core: cycle counter, slot generations, L1, record cache, dictionary RAM (R46, R171, R189, R209, R86), and for
each sector the last fragment served, as 8 times its slot and its entry (R163). -/
structure Core where
  cycle    : Word
  gens     : List (BitVec 12)
  l1       : Tab L1Line
  recCache : Tab (List Word)
  dict     : Option (Word × List Word)
  turns    : List Nat
  fenced   : Bool
  deriving DecidableEq, Repr

/-- A line of a memory-side cache (R194). -/
structure MscLine where
  data  : List Byte
  valid : BitVec 8
  dirty : BitVec 128
  deriving DecidableEq, Repr

/-- A pinned window of an MSC, with the numbers of its 4 KiB pages of physical memory (R196, R229). -/
structure Pin where
  die    : Nat
  index  : Nat
  vd     : Nat
  pages  : List Nat
  fade   : Nat
  count  : Nat
  hit    : Bool
  deriving DecidableEq, Repr

/-- An error that stands in a stored line: how many bytes of its first and second copy, check bytes among them, are bad,
and whether the stack's on-die ECC reports it (R258, R259). -/
structure StoredError where
  first  : Nat
  second : Nat
  ecc    : Bool
  deriving DecidableEq, Repr

/-- What the home knows of a 4 KiB page from the leaf of its last walk: device, owner, grade, and the bases of the check
frame and the mirror region that the check table names (R203, R260). -/
structure PageCode where
  vd     : Nat
  owner  : Nat
  grade  : Grade
  check  : Nat
  mirror : Nat
  deriving DecidableEq, Repr

/-- An agent (R232), a wave, an operation, a system call's service, or 0 for an outside party; and where it stands, by which
R233 says what scopes it shares with another one. -/
structure Spot where
  agent : Nat
  wave  : Bool
  grid  : Nat
  team  : Nat
  nb    : Nat
  core  : Nat
  die   : Nat
  deriving DecidableEq, Repr

/-- By what a release and an acquire pair (R235): the value that a load reads, or a value written by an atomic after the
release at n bytes of an address; a team's barrier, a phase of a named barrier, the tokens of a wave's slot, the launch of a
grid, a stage of a circular buffer, or what its readers give back (R168, R170, R173, R156, R298 to R301); the issue of an
operation or call (R242, R348); what is observed of a wave's operations: those of a completion register, of a class up to a
batch, its bank commands (R243, R248); a system call, or a wave's asynchronous ones (R348); the owner of a line (R236). -/
inductive Sync where
  | none
  | read (pa : Nat) (bs : List Byte)
  | chain (pa n : Nat)
  | bar (team : Nat)
  | phase (team k n : Nat)
  | token (wave slot : Nat)
  | child (grid : Nat)
  | stage (team k : Nat) (n : BitVec 16)
  | freed (team k : Nat)
  | issue (id : Nat)
  | reg (wave r : Nat)
  | batch (wave cls : Nat) (n : BitVec 16)
  | bank (wave : Nat)
  | call (id : Nat)
  | calls (wave : Nat)
  | owner (core : Nat)
  deriving DecidableEq, Repr

/-- What one store, or one line of an engine's write, wrote: by which agent, the bytes with their physical addresses, the
scope at which it releases, if it does, and whether an atomic wrote it (R43, R223, R235). -/
structure Written where
  by'   : Spot
  bytes : Mem
  rel   : Option Nat
  rmw   : Bool
  deriving DecidableEq, Repr

/-- What happened to memory, as far as R43 and R223 ask for it: a store, a release, an acquire, the completion of an
operation (of its wave, class, batch and register; 4 is the class of calls), a grid's retirement with a token. -/
inductive Past where
  | wrote (x : Written)
  | released (by' : Spot) (scope : Nat) (key : Sync)
  | acquired (by' : Spot) (scope : Nat) (keys : List Sync)
  | completed (id wave cls : Nat) (n : BitVec 16) (sd : Option Nat)
  | retired (grid wave slot : Nat)
  deriving DecidableEq, Repr

/-- The service state of a die (R397, R400 to R402, R405). -/
inductive DieService where
  | held | twilight | full | resetting | fenced
  deriving DecidableEq, Repr

/-- A die (R397, R401). -/
structure Die where
  service  : DieService
  trained  : Bool
  unlocked : Bool
  far      : Nat
  deriving DecidableEq, Repr

/-- A request at a memory controller (R197 to R199). -/
structure MemReq where
  vd   : Nat
  line : Nat
  off  : Nat
  size : Nat
  alloc : Bool
  deriving DecidableEq, Repr

/-- A translation kept by a TLB, whose number is that of `tlbOf` (R205). -/
structure TlbEntry where
  tlb  : Nat
  vd   : Nat
  page : Nat
  size : Nat
  leaf : Word
  deriving DecidableEq, Repr

/-- The classes of the messages between dies (R363). -/
inductive LinkClass where
  | request | response | data | engine
  deriving DecidableEq, Repr

/-- A message of the die-to-die transport: its sequence number, its size in flits of 256 bytes, and the edge of its path at
whose receiver it stands (R362, R363). -/
structure Message where
  seq   : Nat
  flits : Nat
  hop   : Nat := 0
  deriving DecidableEq, Repr

/-- A channel of the die-to-die transport for one class from a source to a destination (R363): the messages that stand in
the buffers along its path, and those NACKed with the cycle of it. -/
structure Link where
  src      : Nat
  dst      : Nat
  cls      : LinkClass
  nextSeq  : Nat
  seen     : Nat
  wire     : List Message
  nacked   : List (Message × Nat)
  deriving DecidableEq, Repr

/-- A class at a receiving edge: the edge's die, the neighbour from which it receives, and the class (R363). -/
structure EdgeClass where
  die  : Nat
  side : Nat
  cls  : LinkClass
  deriving DecidableEq, Repr

/-- A CXL port (R200, R351, R377, R401); its completion timeout is in milliseconds, and `lost` are the lines whose dirty
bytes were discarded at its window, which it reports to the resident kernel (R351). -/
structure CxlPort where
  enumerated : Bool
  size       : Nat
  linkUp     : Bool
  available  : Bool
  fenced     : Bool
  timeout    : Nat := 16
  lost       : List Nat := []
  deriving DecidableEq, Repr

/-- A window of 2 MiB of physical memory that the kernel registered with a function or with the Ethernet ports: `slot` is
its place in the function's aperture, `index` its number in physical memory (R378, R380). -/
structure Window where
  fn    : Nat
  slot  : Nat
  index : Nat
  deriving DecidableEq, Repr

/-- An endpoint marked as departed in a group of a device: the physical address of its list entry, and the length of
`writeLog` before the mark (R374). -/
structure Departed where
  vd    : Nat
  group : Nat
  endpoint : Word
  pa    : Nat
  logAt : Nat
  deriving DecidableEq, Repr

/-! ### Queues, devices, policies (R382 to R394) -/

/-- What the hypervisor gives a virtual device: its first global queue number and their count, and, for a guest's
device, the interrupts that its node lists (R378, R395). -/
structure Node where
  first : Nat
  count : Nat
  guest : Option (List Nat)
  deriving DecidableEq, Repr

/-- Whose turn it is at the command processors: the device, the last policy taken, and the passes over its policies that
are left (R394). -/
structure PickTurn where
  vd   : Nat
  pol  : Option Nat
  left : Nat
  deriving DecidableEq, Repr

/-- A virtual device (R382). -/
structure Vd where
  ptroot   : Nat
  depth    : Nat
  rate     : Nat
  weight   : Nat
  pinq     : Nat
  inj      : Bool
  checktab : Nat
  grouptab : Word
  errring  : Nat
  errlog   : Nat
  key      : BitVec 32
  wdog     : Nat
  dies     : BitVec 24
  faults   : Nat
  deriving DecidableEq, Repr

/-- What a queue's running command waits for (R386). -/
inductive Running where
  | launch (grid : Nat) (early : Bool)
  | op (id : Nat) (status : Word)
  | depwait (va v : Word)
  /-- A BIND, or an UNBIND without a block's address, that waits for the target's running commands (R384). -/
  | bind (target : Nat) (qcb : Option Word) (status : Word)
  /-- Completed before the command ahead of it (R386, R390). -/
  | over
  deriving DecidableEq, Repr

/-- A queue (R383 to R387). `next` is the number of the next command to start, `stamps` the TAIL that each doorbell
write gave with its command-processor cycle, `closing` says that a BIND or UNBIND waits for its running commands, `polled` is
the command-processor cycle in which the word of its waiting DEPWAIT was last read (R386, log 74). -/
structure Queue where
  state   : Nat
  err     : Nat
  head    : BitVec 32
  next    : BitVec 32
  tail    : BitVec 32
  logn    : Nat
  ring    : Word
  qcb     : Word
  vd      : Nat
  prio    : Nat
  gceil   : Grade
  policy  : Nat
  running : List Running
  closing : Bool
  picked  : Bool
  stamps  : List (BitVec 32 × Nat)
  polled  : Nat := 0
  deriving DecidableEq, Repr

/-- A loaded policy with its persistent words (R392). -/
structure Policy where
  program : List (BitVec 32)
  persist : List Word
  deriving DecidableEq, Repr

/-- One candidate of a policy's view: the eight fields of LDQ (R392). -/
abbrev Candidate := List Word

/-- What a policy run was started for (R394). -/
inductive PolicyEvent where
  | enqueue | pick (die : Nat) | sliceEnd (grid : Nat)
  deriving DecidableEq, Repr

/-- An event for which a policy runs, with the cycles that the grid has held its slice and the clock (R392, R394). -/
structure PolicyCall where
  vd    : Nat
  pol   : Nat
  event : PolicyEvent
  queue : Nat
  held  : Word
  clock : Word
  deriving DecidableEq, Repr

/-- A policy run (R392, R393). `loop` holds the first position of a LOOPN body, its loop end, and the runs left. -/
structure PolicyRun where
  program : List (BitVec 32)
  vd    : Nat
  pol   : Nat
  event : PolicyEvent
  pos   : Nat
  regs  : List Word
  loop  : Option (Nat × Nat × Nat)
  steps : Nat
  view  : List Candidate
  evf   : List Word
  deriving DecidableEq, Repr

/-! ### Dawn and Retrace (R397 to R405) -/

/-- One copy of a firmware image in flash: header words, key, body, signature (R398). -/
structure FlashImage where
  header : List Word
  key    : List Byte
  body   : List Byte
  sig    : List Byte
  deriving DecidableEq, Repr

/-- Dawn (R397 to R400). -/
structure Dawn where
  running  : Bool
  stage    : Nat
  recovery : Bool
  flash    : List (Option FlashImage × Option FlashImage)
  revoked  : List Bool
  keyHash  : List (List Byte)
  minSvn   : List Nat
  measured : List (List Byte)
  attested : List Byte
  missed   : List Nat
  resets   : Nat
  fencedBanks : List (Nat × Nat)
  fencedEth : List Nat
  deriving DecidableEq, Repr

/-- One entry of the Retrace log (R403): the queue, the command, the grade of the page that it was read from, the packet
of a LAUNCH, the input list with its digests; then what a replay needs (R404): its grids in the order of their launch or its
operation, the LAUNCH of each grid after the first, the results of each system call, under the numbers of grid, team, wave,
fragment and call, the choices of the operations, and the places of each grid's neighbourhoods. `rung` says that it stands in
the ring. -/
structure LogEntry where
  queue   : Nat
  command : List Word
  descG   : Grade := 0
  packet  : List Word
  inputs  : List (Word × Nat × List Byte)
  grids   : List Nat
  births  : List (List Nat) := []
  rung    : Bool := false
  op      : Option Nat := none
  sysc    : List (List Nat × List Word)
  draws   : List (List Nat × Nat) := []
  places  : Tab (List (Nat × Nat))
  deriving DecidableEq, Repr

/-- Retrace (R403, R404): its two registers, the bytes of the ring that are written, the log, the input list of each
queue, and, for each replay, what is left of its entry, what it has stored, which stands apart from memory (R241), and the
status address of each replayed operation. -/
structure Retrace where
  rtbase : Nat
  rtq    : Nat
  log    : List LogEntry
  inputs : Tab (List (Word × Nat))
  pools  : Tab LogEntry
  shadow : Tab (Tab Byte) := []
  status : Tab (Nat × Word)
  pos    : Nat := 0
  deriving DecidableEq, Repr

/-! ### The module -/

/-- A part of a wave's state that a debugger writes (R349). -/
inductive WaveWrite where
  | s (n : Nat) (v : SRegV)
  | v (n : Nat) (v : VRegV)
  | flg (v : BitVec 4)
  | aflg (v : BitVec 14)
  | gst (v : Word)
  | cause (v : Word)
  | tpc (v : Word)
  | tmask (v : LaneMask)
  | tinfo (v : Word)
  | ilen (v : BitVec 4)
  | inh (v : Option Nat)
  | ginj (v : Word)
  | evpend (v : BitVec 16)
  | evmask (v : BitVec 16)
  | evovf (v : Bool)
  | evv (k : Nat) (v : Word)
  | bind (k : Nat) (b : Binding)
  | count (k : Nat) (n : BitVec 8) (scope : BitVec 3)
  | table (frags : List (Option Fragment)) (recs : List (Option Rec))
  | batch (k : Nat) (b : Batch)
  | pending (regs : List (Nat × Nat))
  | nbar (k : Nat) (v : Option Nat)
  | origin (v : Option Word)
  deriving DecidableEq, Repr

/-- What moves next, when the state says so (log 3). -/
inductive Action where
  /-- Let this fragment issue its next instruction, if its sector chooses it (R163). -/
  | issue (w f : Nat)
  /-- An operand of this fragment's next instruction is not there in this cycle of its core (R129, R163). -/
  | stall (w f : Nat)
  /-- Let this step of another agent happen. -/
  | event (i : Instr)
  /-- Let a cycle of one core pass. -/
  | tick (core : Nat)
  /-- An error arises in a stored line (R259). -/
  | storageError (line : Nat) (e : StoredError)
  /-- Privileged software sets F, the ways of a die's far partition (R194). -/
  | setFar (die f : Nat)
  /-- A fault of the hardware inverts a bit of a lane's result in one run of the wave's next repeated instruction
  (R271). -/
  | computeFault (w run lane bit : Nat)
  /-- A transit check of a line fails after its retries (R261). -/
  | transitError (line : Nat) (write : Bool)
  /-- The unified array finds an uncorrectable error in a register lane (R266). -/
  | laneError (w : Nat) (v l : Nat)
  /-- The unified array finds an uncorrectable error in a scratchpad word (R266). -/
  | scratchError (t word : Nat)
  /-- A debugger attaches to a grid or leaves it (R349). -/
  | attach (g : Nat) (on : Bool)
  /-- The part of a rank of another module arrives (R369, R379). -/
  | peerPart (vd group seq rank : Nat) (p : CollPart)
  /-- A control core stores bytes to memory (R232). -/
  | kernelStore (pa : Nat) (bs : List Byte)
  /-- An endpoint of another module has departed (R374). -/
  | peerDeparts (endpoint : Word)
  /-- The hypervisor gives an owner's records to the ring of a virtual device (R269, R382). -/
  | assignOwner (owner vd : Nat)
  /-- The resident kernel gives the module its number (R366, R379). -/
  | setModule (n : Nat)
  /-- Software gives a queue its input list (R403). -/
  | setInputs (q : Nat) (xs : List (Word × Nat))
  /-- The hypervisor gives a virtual device its queues and interrupts (R395). -/
  | assignNode (vd : Nat) (n : Node)
  /-- The resident kernel registers a window with a function or the Ethernet ports, or withdraws it (R380). -/
  | setWindow (w : Window) (on : Bool)
  /-- A cycle passes at the command processors. -/
  | cpTick
  /-- Nanoseconds pass since Dawn released the dies, as the kernel counts them (R348). -/
  | clock (ns : Word)
  /-- The completion timeout of a CXL port is set, from 1 to 64 milliseconds (R377). -/
  | setTimeout (port ms : Nat)
  /-- The debugger of a grid writes a part of the state of a wave that it holds (R349). -/
  | debugWrite (w : Nat) (x : WaveWrite)
  /-- An engine of a die moves a beat: the collective engine, or the copy engine (R284). -/
  | engineBeat (die : Nat) (coll : Bool)
  /-- A message of some flits is given to the die-to-die transport (R363). -/
  | d2dSend (src dst : Nat) (cls : LinkClass) (flits : Nat)
  /-- The n-th message of a channel crosses the next edge of its path (R363). -/
  | d2dForward (link n : Nat)
  deriving DecidableEq, Repr

/-- The fragment whose instruction executes, and the length of that instruction (log 3). -/
structure Cur where
  wave : Nat
  frag : Nat
  ilen : Nat
  deriving DecidableEq, Repr

/-- The state of the module. `engines` says of each engine, under twice its die and 1 more for the collective one, whose
context's turn it is and how many beats that has moved in it (R284). `agenda`, `cur`, `turn` (after an issue, a step of the other agents comes first), `free`,
`opNext` and `last` are the model's own (log 3), and so is `writeLog`, the stores, the releases, the acquires and the
completions, newest first, by which a fetch may take a value (R43, R235). -/
structure State where
  agenda  : List Action
  cur     : Option Cur
  turn    : Bool
  free    : Nat
  opNext  : Nat
  last    : Nat × Nat
  waves   : Tab Wave
  teams   : Tab Team
  nbs     : Tab Nb
  grids   : Tab Grid
  ops     : Tab Op
  calls   : Tab Call
  engines : Tab (Nat × Nat)
  cores   : Tab Core
  dies    : Tab Die
  dram    : Mem
  writeLog : List Past
  poisoned : List Nat
  errors  : Tab StoredError
  codes   : Tab PageCode
  transit : List Nat
  corrected : Tab Nat
  msc     : Tab MscLine
  owners  : Tab Nat
  pins    : List Pin
  tlb     : List TlbEntry
  buckets : Tab Nat
  requests : Tab (List MemReq)
  intake  : Tab (List Nat)
  bankQ   : Tab (List Nat)
  links   : Tab Link
  stops   : List EdgeClass
  cxl     : List CxlPort
  windows : List Window
  interrupts : List (Nat × Nat)
  hostData : List Byte
  inbox   : List (Nat × List Byte)
  vds     : Tab Vd
  queues  : Tab Queue
  policies : Tab Policy
  compass : Option PolicyRun
  polCalls : List PolicyCall
  cpCycle : Nat
  clock   : Word
  pickTurn : PickTurn
  picks   : List Nat
  nodes   : Tab Node
  ownerVd : Tab Nat
  collSeq : Tab Nat
  rounds  : List Round
  departed : List Departed
  moduleNo : Nat
  dawn    : Dawn
  retrace : Retrace
  deriving DecidableEq, Repr

/-- A core as it stands at power-on (R46, R171: no value given, log 2; R187, R209: empty). -/
def Core.reset : Core :=
  { cycle := 0, gens := List.replicate 64 0, l1 := [], recCache := [], dict := none,
    turns := [0, 0, 0, 0], fenced := false }

/-- A die held in reset by Dawn (R397); the far partition's F is log 2. -/
def Die.reset : Die := { service := .held, trained := false, unlocked := false, far := 4 }

/-- A CXL port before enumeration (R377, R401). -/
def CxlPort.reset : CxlPort :=
  { enumerated := false, size := 0, linkUp := true, available := false, fenced := false }

/-- Dawn before POWER_ON; its flash and fuses are the part's and arrive from outside (log 12). -/
def Dawn.reset : Dawn :=
  { running := false, stage := 0, recovery := false,
    flash := [(none, none), (none, none), (none, none)],
    revoked := [false, false, false, false], keyHash := [[], [], [], []], minSvn := [0, 0, 0],
    measured := [], attested := [], missed := List.replicate 16 0, resets := 0,
    fencedBanks := [], fencedEth := [] }

/-- Retrace at power-on (R403: no value given, log 2). -/
def Retrace.reset : Retrace := { rtbase := 0, rtq := 0, log := [], inputs := [], pools := [], status := [] }

/-- The module at power-on: every unit in reset (R397), nothing placed, memory with nothing listed (log 1). -/
def State.reset : State :=
  { agenda := [], cur := none, turn := false, free := 0, opNext := 1, last := (0, 0),
    waves := [], teams := [], nbs := [], grids := [], ops := [], calls := [], engines := [], cores := [], dies := [],
    dram := [], writeLog := [], poisoned := [], errors := [], codes := [], transit := [], corrected := [],
    msc := [], owners := [], pins := [], tlb := [], buckets := [], requests := [], intake := [], bankQ := [], links := [], stops := [],
    cxl := List.replicate 12 CxlPort.reset, windows := [], interrupts := [], hostData := [], inbox := [],
    vds := [], queues := [], policies := [], compass := none, polCalls := [], cpCycle := 0,
    clock := 0, pickTurn := { vd := 0, pol := none, left := 0 }, picks := [], nodes := [], ownerVd := [],
    collSeq := [], rounds := [], departed := [], moduleNo := 0,
    dawn := Dawn.reset, retrace := Retrace.reset }

end Sys2Proof.Machine
end

