-- ==== Sys2Proof/Machine/Home.lean ====
section
/-! DEFINITION. Homes, memory-side caches and DRAM (R194 to R201), errors in stored lines (R259), and the error
rings (R269, R382). -/

namespace Sys2Proof.Machine

/-- Bits hi..lo of a word as a number. -/
def bits (w : Word) (hi lo : Nat) : Nat := (w.toNat / 2 ^ lo) % 2 ^ (hi + 1 - lo)

/-- One bit of a word. -/
def bit (w : Word) (i : Nat) : Bool := w.getLsbD i

/-- A word with bits hi..lo replaced by a number. -/
def setBits (w : Word) (hi lo v : Nat) : Word :=
  BitVec.ofNat 64 (w.toNat - bits w hi lo * 2 ^ lo + (v % 2 ^ (hi + 1 - lo)) * 2 ^ lo)

/-- A bit mask of n ones from bit i. -/
def ones (i n : Nat) : BitVec 128 := BitVec.ofNat 128 ((2 ^ n - 1) * 2 ^ i)

/-- A list with element i replaced. -/
def setAt {α : Type} : List α → Nat → α → List α
  | [], _, _ => []
  | _ :: t, 0, v => v :: t
  | h :: t, n + 1, v => h :: setAt t n v

/-! ### Homes (R200) -/

/-- The first byte of the CXL space (R200). -/
def cxlBase : Nat := 2 ^ 44

/-- The bytes of the HBM4E space: 24 stacks of 64 GiB (R200). -/
def hbmTop : Nat := 24 * 2 ^ 36

/-- The port and offset of a CXL address (R200). -/
def cxlOf (pa : Nat) : Option (Nat × Nat) :=
  if cxlBase ≤ pa ∧ (pa - cxlBase) / 2 ^ 40 < 12 then some ((pa - cxlBase) / 2 ^ 40, (pa - cxlBase) % 2 ^ 40)
  else none

/-- A die as the state holds it; an unlisted one stands as at power-on. -/
def State.die (s : State) (d : Nat) : Die := TabOps.get Die.reset s.dies d

/-- A die that homes lines: in Twilight or full service (R200, R401). -/
def Die.up (d : Die) : Bool :=
  match d.service with
  | .twilight | .full => true
  | .held | .resetting | .fenced => false

/-- The next die in service from d upwards, wrapping from 23 to 0, within n dies (R200). -/
def State.substitute (s : State) (d : Nat) : Nat → Nat
  | 0 => d % 24
  | n + 1 => if (s.die (d % 24)).up then d % 24 else s.substitute (d + 1) n

/-- The home die of an address in the HBM4E or CXL space (R200). -/
def State.homeDie (s : State) (pa : Nat) : Nat :=
  if pa < hbmTop then pa / 2 ^ 36 else s.substitute (pa / 2 ^ 12 % 2 ^ 12 % 24) 24

/-- Whether an address has a home that answers, and how it fails else. -/
inductive HomeState where
  | ok | none | cxlDown
  deriving DecidableEq, Repr

/-- A CXL port as the state holds it. -/
def State.port (s : State) (p : Nat) : CxlPort := s.cxl.getD p CxlPort.reset

/-- The module serves in Twilight: some die does (R401). -/
def State.inTwilight (s : State) : Bool := s.dies.any (fun d => d.2.service == .twilight)

/-- The home of an address: none raises PERM, a window that is down or not available CXLDOWN (R200, R351, R401), among them
every one of a fenced port, enumerated or not (R405); the stack of a fenced die is no home (R405), nor is that of a die that
Dawn holds or resets (R397, R400; log 66). -/
def State.homeState (s : State) (pa : Nat) : HomeState :=
  if pa < hbmTop then (if (s.die (pa / 2 ^ 36)).up then .ok else .none)
  else match cxlOf pa with
    | none => .none
    | some (p, off) =>
      let c := s.port p
      if !c.enumerated then (if s.inTwilight || c.fenced then .cxlDown else .none)
      else if c.size ≤ off then .none
      else if c.available && c.linkUp && !c.fenced then .ok else .cxlDown

/-! ### The memory-side cache (R194 to R198) -/

/-- A byte that a line of 128 bytes with these masks holds. -/
def heldByte (valid : BitVec 8) (dirty : BitVec 128) (i : Nat) : Bool := valid.getLsbD (i / 16) || dirty.getLsbD i

/-- The byte at a physical address as its home holds it: the MSC line where it holds the byte, else DRAM. -/
def State.homeByte (s : State) (pa : Nat) : Byte :=
  match TabOps.find? s.msc (pa / 128) with
  | some l => if heldByte l.valid l.dirty (pa % 128) then l.data.getD (pa % 128) 0 else MemOps.read s.dram pa
  | none => MemOps.read s.dram pa

/-- n bytes at a physical address, from their homes. -/
def State.homeBytes (s : State) (pa : Nat) : Nat → List Byte
  | 0 => []
  | n + 1 => s.homeByte pa :: s.homeBytes (pa + 1) n

/-- A little-endian word at a physical address, from its home. -/
def State.homeWord (s : State) (pa : Nat) : Word := BitVec.ofNat 64 (leValue (s.homeBytes pa 8))

/-- The MSC set of a physical address (R195). -/
def mscSet (pa : Nat) : Nat := ((pa / 2 ^ 7 % 2 ^ 15) ^^^ (pa / 2 ^ 22 % 2 ^ 15)) ^^^ (pa / 2 ^ 37 % 2 ^ 15)

/-- An MSC line replaced. -/
def State.setMsc (s : State) (line : Nat) (l : MscLine) : State := { s with msc := TabOps.put s.msc line l }

/-- The dirty bytes of an MSC line written to DRAM. -/
def flushBytes (line : Nat) (l : MscLine) (m : Mem) : Nat → Mem
  | 0 => m
  | n + 1 => if l.dirty.getLsbD n then MemOps.write (flushBytes line l m n) (line * 128 + n) (l.data.getD n 0)
             else flushBytes line l m n

/-- A line of a CXL window that is down or unavailable: what is written there is discarded (R351). -/
def State.lineDown (s : State) (line : Nat) : Bool := s.homeState (line * 128) == .cxlDown

/-- A CXL port replaced by a change of it. -/
def State.setPort (s : State) (p : Nat) (g : CxlPort → CxlPort) : State := { s with cxl := setAt s.cxl p (g (s.port p)) }

/-- A discarded line joins the report of its port, from which the resident kernel learns of it (R351). -/
def State.reportLost (s : State) (line : Nat) : State :=
  match cxlOf (line * 128) with
  | some (p, _) => s.setPort p (fun c => { c with lost := (line :: c.lost).eraseDups })
  | none => s

/-- The sectors of a line in which a mask names a byte. -/
def touchedSectors (mask : BitVec 128) : BitVec 8 :=
  (List.range 8).foldl (fun m i =>
    if (List.range 16).any (fun j => mask.getLsbD (16 * i + j)) then m ||| BitVec.ofNat 8 (2 ^ i) else m) 0

/-! ### Codes in storage (R258 to R260) -/

/-- What the home knows of the page of a line. -/
def State.knownCode (s : State) (line : Nat) : Option PageCode := TabOps.find? s.codes (line / 32)

/-- The grade at which the home stores a line; 0 until a walk has reached its page. -/
def State.lineGrade (s : State) (line : Nat) : Nat := ((s.knownCode line).map (fun c => c.grade.toNat)).getD 0

/-- The device, owner and grade of the page of a line; before a walk has reached the page, the hypervisor's device, a
free owner and grade 0 (log 10). -/
def State.pageCode (s : State) (line : Nat) : PageCode :=
  (s.knownCode line).getD
    { vd := 0, owner := Config.freeChoice (Nat.pair s.free line) % 256, grade := 0, check := 0, mirror := 0 }

/-- The check bytes of a line at a grade (R258). -/
def checkLen (g : Nat) : Nat := if g = 1 then 8 else 16

/-- Where the check bytes of a line stand (R260). -/
def PageCode.checkAt (c : PageCode) (line : Nat) : Nat := c.check + line % 2 ^ 14 * checkLen c.grade.toNat

/-- Where the second copy of a line stands (R260). -/
def PageCode.mirrorAt (c : PageCode) (line : Nat) : Nat := c.mirror + line % 2 ^ 14 * 128

/-- The line in DRAM encoded: its check bytes in the check frame, and at grade 3 its second copy in the mirror (R259,
R260). -/
def State.encode (s : State) (line : Nat) : State :=
  match s.knownCode line with
  | none => s
  | some c =>
    if c.grade = 0 then s
    else
      let data := MemOps.readBytes s.dram (line * 128) 128
      let n := checkLen c.grade.toNat
      let code := (List.range n).map (fun i => (Config.checkBytes n data).getD i 0)
      let dram := MemOps.writeBytes s.dram (c.checkAt line) code
      { s with dram := if c.grade = 3 then MemOps.writeBytes dram (c.mirrorAt line) data else dram }

/-- An error is beyond the reach of the code of a grade: of grade 3 both copies fail (R258, R259). -/
def StoredError.beyond (e : StoredError) (g : Nat) : Bool :=
  if g = 0 then e.ecc
  else if g = 1 then decide (4 < e.first)
  else if g = 2 then decide (8 < e.first)
  else decide (8 < e.first ∧ 8 < e.second)

/-- The home holds a line marked poisoned, or stored beyond its code's reach at a grade (R259). -/
def State.lineBad (s : State) (line : Nat) (g : Nat) : Bool :=
  s.poisoned.contains line || (TabOps.find? s.errors line).any (fun e => e.beyond g)

/-- A line marked poisoned at its home. -/
def State.markPoisoned (s : State) (line : Nat) : State :=
  if s.poisoned.contains line then s else { s with poisoned := line :: s.poisoned }

/-- A line written whole: the mark and every stored error go (R259). -/
def State.lineWhole (s : State) (line : Nat) : State :=
  { s with poisoned := s.poisoned.filter (· != line), errors := TabOps.drop s.errors line }

/-- A request at the memory controller of a line's home (R199). -/
def State.request (s : State) (vd line off n : Nat) (alloc : Bool) : State :=
  let d := s.homeDie (line * 128)
  { s with requests := TabOps.put s.requests d (TabOps.get [] s.requests d
      ++ [{ vd := vd, line := line, off := off, size := n, alloc := alloc }]) }

/-- The smallest aligned block of 16, 32, 64 or 128 bytes that holds bytes lo to hi of a line (R197). -/
def grain (lo hi : Nat) : Nat × Nat :=
  if lo / 16 = hi / 16 then (lo / 16 * 16, 16)
  else if lo / 32 = hi / 32 then (lo / 32 * 32, 32)
  else if lo / 64 = hi / 64 then (lo / 64 * 64, 64)
  else (0, 128)

/-- The first byte that a mask names, and how many bytes lie from it to the last. -/
def maskSpan (m : BitVec 128) : Nat × Nat :=
  let on := (List.range 128).filter m.getLsbD
  (on.headD 0, on.getLastD 0 + 1 - on.headD 0)

/-- The request of a write past the MSC, for the device of the page: the block that holds every byte that a mask names
(R197, R199, R201). -/
def State.wantWrite (s : State) (line : Nat) (mask : BitVec 128) : State :=
  let sp := maskSpan mask
  let b := grain sp.1 (sp.1 + sp.2 - 1)
  s.request (s.pageCode line).vd line b.1 b.2 false

/-- A stored error that the code of a grade corrects: the home scrubs the line and counts the error for the owner. At
grade 0 the on-die ECC corrects by itself, and tells nobody (R259). -/
def State.scrub (s : State) (line g owner : Nat) : State :=
  match TabOps.find? s.errors line with
  | some _ =>
    if g = 0 || s.lineBad line g then s
    else { s with errors := TabOps.drop s.errors line,
                  corrected := TabOps.put s.corrected owner (TabOps.get 0 s.corrected owner + 1) }
  | none => s

/-- The home merges a part of a line, which it reads for it (R259). -/
def State.mergeScrub (s : State) (line : Nat) : State :=
  match s.knownCode line with
  | some c => s.scrub line c.grade.toNat c.owner
  | none => s

/-- Bytes of a line written to DRAM, or to an expander, and the line encoded again: all 128 clear its mark; a part of an
uncorrectable line leaves it marked, and a part of another one is merged (R259). -/
def State.storeDram (s : State) (line : Nat) (mask : BitVec 128) (data : List Byte) : State :=
  let s := if mask = BitVec.allOnes 128 then s.lineWhole line
    else if s.lineBad line (s.lineGrade line) then s.markPoisoned line else s.mergeScrub line
  (({ s with dram := flushBytes line { data := data, valid := 0, dirty := mask } s.dram 128 } : State).encode line).wantWrite
    line mask

/-- An MSC line whose bytes of a mask have been written back: they are clean, and their sectors valid, the rest of which the
merge at the home has read (R223, R228, R259). -/
def MscLine.cleaned (l : MscLine) (dram : Mem) (line : Nat) (mask : BitVec 128) : MscLine :=
  let t := touchedSectors mask
  { data := (List.range 128).map (fun i =>
      if t.getLsbD (i / 16) && !heldByte l.valid l.dirty i then MemOps.read dram (line * 128 + i) else l.data.getD i 0)
    valid := l.valid ||| t
    dirty := l.dirty &&& ~~~mask }

/-- The dirty bytes of an MSC line that a mask names written to DRAM, where they become clean (R223, R259). Of a line that is
bad no more becomes valid. At a window that is down they are discarded (R351). -/
def State.mscCleanPart (s : State) (line : Nat) (mask : BitVec 128) : State :=
  match TabOps.find? s.msc line with
  | none => s
  | some l =>
    let d := l.dirty &&& mask
    let kept := s.setMsc line { l with dirty := l.dirty &&& ~~~mask }
    if d = 0 then s
    else if s.lineDown line then kept.reportLost line
    else
      let t := kept.storeDram line d l.data
      if t.lineBad line (t.lineGrade line) then t else t.setMsc line (l.cleaned t.dram line d)

/-- An MSC line written back to DRAM, or to an expander, and kept, clean. -/
def State.mscClean (s : State) (line : Nat) : State := s.mscCleanPart line (BitVec.allOnes 128)

/-- An MSC line written back and dropped. -/
def State.mscEvict (s : State) (line : Nat) : State :=
  let s := s.mscClean line
  { s with msc := TabOps.drop s.msc line }

/-- A line of a pinned window, which is never a victim (R196). -/
def State.pinned (s : State) (line : Nat) : Bool :=
  s.pins.any (fun p => p.pages.contains (line / 32))

/-- The lines of the home's MSC in the set and partition of a line, without that line (R194). -/
def State.mscRivals (s : State) (line : Nat) : List Nat :=
  (s.msc.map Prod.fst).filter (fun k => k != line && mscSet (k * 128) == mscSet (line * 128)
    && s.homeDie (k * 128) == s.homeDie (line * 128) && decide (k * 128 < hbmTop) == decide (line * 128 < hbmTop))

/-- The ways that the partition of a line has in one set (R194). -/
def State.mscWays (s : State) (line : Nat) : Nat :=
  let far := (s.die (s.homeDie (line * 128))).far
  if line * 128 < hbmTop then 16 - far else far

/-- Room for a line in its set: a free way, or a victim among the unpinned lines, which one is free (R194, R196,
log 5); none when there is no victim. -/
def State.mscRoom (s : State) (line : Nat) : Option State :=
  let rivals := s.mscRivals line
  if rivals.length < s.mscWays line then some s
  else match rivals.filter (fun k => !s.pinned k) with
    | [] => none
    | k :: ks =>
      let v := (k :: ks).getD (Config.freeChoice s.free % (k :: ks).length) k
      some { s.mscEvict v with free := s.free + 1 }

/-- An empty MSC line. -/
def MscLine.empty : MscLine := { data := List.replicate 128 0, valid := 0, dirty := 0 }

/-- A hit of the MSC on a line of a window counts for its fade counter (R196). -/
def State.pinHit (s : State) (line : Nat) : State :=
  { s with pins := s.pins.map (fun p =>
      { p with hit := p.hit || p.pages.contains (line / 32) }) }

/-- The data of a line of 128 bytes with some bytes from an offset replaced. -/
def putBytes (data : List Byte) (off : Nat) (bs : List Byte) : List Byte :=
  (List.range 128).map (fun i => if off ≤ i ∧ i < off + bs.length then bs.getD (i - off) 0 else data.getD i 0)

/-- An agent outside the waves: an operation or a call under its number, or, under 0, an outside party (R232). -/
def Spot.of (id : Nat) : Spot :=
  { agent := id, wave := false, grid := 0, team := 0, nb := 0, core := 0, die := 0 }

/-- A wave with the place where it stands (R233). -/
def State.spotOf (s : State) (wid : Nat) : Spot :=
  match TabOps.find? s.waves wid with
  | some w => { agent := wid, wave := true, grid := w.grid, team := w.team, nb := w.nb,
                core := w.die * 48 + w.core, die := w.die }
  | none => Spot.of wid

/-- One more thing that happened to memory (R43, R235). -/
def State.note (s : State) (x : Past) : State := { s with writeLog := x :: s.writeLog }

/-- Bytes from a physical address up noted as written by an agent, in one piece (R43, R223). -/
def State.logWrite (s : State) (who : Spot) (pa : Nat) (bs : List Byte) : State :=
  s.note (.wrote { by' := who, bytes := bs.zipIdx.map (fun b => (pa + b.2, b.1)), rel := none, rmw := false })

/-- The bytes of a line with those that a mask names replaced. -/
def mergeBytes (mask : BitVec 128) (new old : List Byte) : List Byte :=
  (List.range 128).map (fun i => if mask.getLsbD i then new.getD i 0 else old.getD i 0)

/-- The bytes of a line that a mask names written at their home, by one request (R197). An uncorrectable line keeps or gets
its mark unless it is written whole, and is never in the MSC (R259). Otherwise an MSC line that is present takes them as
dirty bytes; an absent one is allocated if `alloc` says so and the set has room (R201), else they go to DRAM. What is
written to a window that is down is discarded (R351). -/
def State.homeMerge (s : State) (line : Nat) (mask : BitVec 128) (data : List Byte) (alloc : Bool) : State :=
  if mask = 0 then s
  else if s.lineDown line then s.reportLost line
  else
    let s := if mask = BitVec.allOnes 128 then s.lineWhole line else s
    if s.lineBad line (s.lineGrade line) then (s.mscEvict line).storeDram line mask data
    else match TabOps.find? s.msc line with
      | some l => (s.setMsc line
          { l with data := mergeBytes mask data l.data, dirty := l.dirty ||| mask }).pinHit line
      | none =>
        match (if alloc then s.mscRoom line else none) with
        | some s => s.setMsc line
            { MscLine.empty with data := mergeBytes mask data MscLine.empty.data, dirty := mask }
        | none => s.storeDram line mask data

/-! ### What a replay stores (R241, R404) -/

/-- The byte that a replay stored at an address, else memory's; no replay reads memory. -/
def State.shadowed (s : State) (x : Option Nat) (pa : Nat) (b : Byte) : Byte :=
  match x with
  | none => b
  | some n => (TabOps.find? (TabOps.get [] s.retrace.shadow n) pa).getD b

/-- A byte stored by replay n, apart from memory. -/
def State.shadowByte (s : State) (n pa : Nat) (b : Byte) : State :=
  { s with retrace := { s.retrace with
      shadow := TabOps.put s.retrace.shadow n (TabOps.put (TabOps.get [] s.retrace.shadow n) pa b) } }

/-- Bytes stored by replay n from an address up. -/
def State.shadowBytes (s : State) (n pa : Nat) (bs : List Byte) : State :=
  bs.zipIdx.foldl (fun s b => s.shadowByte n (pa + b.2) b.1) s

/-- The bytes of a line that a mask names, stored by replay n. -/
def State.shadowLine (s : State) (n line : Nat) (mask : BitVec 128) (data : List Byte) : State :=
  (List.range 128).foldl (fun s i => if mask.getLsbD i then s.shadowByte n (line * 128 + i) (data.getD i 0) else s) s

/-- n bytes at a physical address as a replay, or any other agent, finds them at their homes. -/
def State.homeSeen (s : State) (x : Option Nat) (pa : Nat) : Nat → List Byte
  | 0 => []
  | n + 1 => s.shadowed x pa (s.homeByte pa) :: s.homeSeen x (pa + 1) n

/-- The bytes of a line that a mask names, with their physical addresses. -/
def lineCells (line : Nat) (mask : BitVec 128) (data : List Byte) : Mem :=
  ((List.range 128).filter mask.getLsbD).map (fun i => (line * 128 + i, data.getD i 0))

/-- The bytes of a line that a mask names, noted as written by an agent. -/
def State.logLine (s : State) (who : Spot) (line : Nat) (mask : BitVec 128) (data : List Byte) : State :=
  s.note (.wrote { by' := who, bytes := lineCells line mask data, rel := none, rmw := false })

/-- The bytes of a line that a mask names stored at their home by an agent without an L1, or by a replay. -/
def State.homePut (s : State) (x : Option Nat) (who : Spot) (line : Nat) (mask : BitVec 128) (data : List Byte) : State :=
  match x with
  | some n => s.shadowLine n line mask data
  | none => (s.logLine who line mask data).homeMerge line mask data true

/-- Bytes of one line from an offset written at their home by an agent without an L1. -/
def State.homeWriteLine (s : State) (who : Spot) (line off : Nat) (bs : List Byte) (alloc : Bool) : State :=
  (s.logWrite who (line * 128 + off) bs).homeMerge line (ones off bs.length) (putBytes MscLine.empty.data off bs) alloc

/-- Bytes split by 128 B line: (line, offset, bytes). -/
def splitLines (pa : Nat) (bs : List Byte) : Nat → List (Nat × Nat × List Byte)
  | 0 => []
  | n + 1 =>
    if bs.isEmpty then []
    else (pa / 128, pa % 128, bs.take (128 - pa % 128))
      :: splitLines (pa + (128 - pa % 128)) (bs.drop (128 - pa % 128)) n

/-- Bytes written at their homes by an agent, in ascending address order. -/
def State.homeWriteBy (s : State) (who : Spot) (pa : Nat) (bs : List Byte) (alloc : Bool) : State :=
  (splitLines pa bs (bs.length + 1)).foldl (fun s c => s.homeWriteLine who c.1 c.2.1 c.2.2 alloc) s

/-- Bytes written at their homes by an outside party. -/
def State.homeWrite (s : State) (pa : Nat) (bs : List Byte) (alloc : Bool) : State := s.homeWriteBy (Spot.of 0) pa bs alloc

/-- Bytes stored from an address up by an agent without an L1, or by a replay. -/
def State.homeStore (s : State) (x : Option Nat) (who : Spot) (pa : Nat) (bs : List Byte) : State :=
  match x with
  | some n => s.shadowBytes n pa bs
  | none => s.homeWriteBy who pa bs true

/-- A little-endian word written at its home. -/
def State.homeWriteWord (s : State) (pa : Nat) (w : Word) : State := s.homeWrite pa (leBytes w.toNat 8) true

/-! ### Virtual devices and error rings (R269, R382) -/

/-- A virtual device that VDSET has not defined. -/
def Vd.none : Vd :=
  { ptroot := 0, depth := 0, rate := 0, weight := 0, pinq := 0, inj := false, checktab := 0, grouptab := 0,
    errring := 0, errlog := 0, key := 0, wdog := 0, dies := 0, faults := 0 }

/-- A virtual device as the state holds it. -/
def State.vd (s : State) (v : Nat) : Vd := TabOps.get Vd.none s.vds v

/-- An error record (R269). -/
structure ErrRec where
  owner  : Nat
  kind   : Nat
  grade  : Nat
  eg     : Nat
  die    : Nat
  handle : Nat
  line   : Nat
  pc     : Word
  cycle  : Word
  deriving DecidableEq, Repr

/-- Word 0 of an error record (R269). -/
def ErrRec.word0 (r : ErrRec) : Word :=
  BitVec.ofNat 64 (r.owner % 256 * 2 ^ 56 + r.kind % 16 * 2 ^ 52 + r.grade % 4 * 2 ^ 50 + r.eg % 4 * 2 ^ 48
    + r.die % 32 * 2 ^ 24 + r.handle % 2 ^ 24)

/-- The device whose ring takes the records of an owner: the one that the hypervisor gave it, else the device whose page
or grid is concerned (R269, R382; log 10). -/
def State.ringOf (s : State) (vd owner : Nat) : Nat := (TabOps.find? s.ownerVd (owner % 256)).getD vd

/-- A record written into the ring of its owner, or dropped with the overflow count advanced when the ring is full
(R269, R382). -/
def State.errorRecord (s : State) (vd' : Nat) (r : ErrRec) : State :=
  let vd := s.ringOf vd' r.owner
  let v := s.vd vd
  let wi := s.homeWord v.errring
  let ri := s.homeWord (v.errring + 8)
  let size := 2 ^ (v.errlog + 4)
  if TabOps.find? s.vds vd = none then s
  else if (wi - ri).toNat = size then s.homeWriteWord (v.errring + 16) (s.homeWord (v.errring + 16) + 1)
  else
    let at' := v.errring + 32 + 32 * (wi.toNat % size)
    let s := s.homeWrite at' (leBytes r.word0.toNat 8 ++ leBytes r.line 8 ++ leBytes r.pc.toNat 8
      ++ leBytes r.cycle.toNat 8) true
    s.homeWriteWord v.errring (wi + 1)

/-! ### Cores -/

/-- The key of a core in the table of cores. -/
def coreKey (die core : Nat) : Nat := die * 48 + core

/-- A core as the state holds it. -/
def State.core (s : State) (k : Nat) : Core := TabOps.get Core.reset s.cores k

/-- A core replaced. -/
def State.setCore (s : State) (k : Nat) (c : Core) : State := { s with cores := TabOps.put s.cores k c }

/-- CYCLE of a core of a die, for records of that die. -/
def State.dieCycle (s : State) (d : Nat) : Word := (s.core (coreKey d 0)).cycle

/-! ### Reads at the home with the checks of R259 and R261 -/

/-- The result of the home's check of a line that is read from DRAM or crosses the transport. -/
inductive LineCheck where
  | good | detect | transit
  deriving DecidableEq, Repr

/-- A line whose bytes the MSC holds, all of a block. -/
def State.mscHolds (s : State) (line off n : Nat) : Bool :=
  match TabOps.find? s.msc line with
  | some l => (List.range n).all (fun i => heldByte l.valid l.dirty (off + i))
  | none => false

/-- What reading a block of a line finds: an uncorrectable stored line is found only when DRAM is read, a transit
failure on any transfer of a page of grade 1 or above (R259, R261). -/
def State.checkLine (s : State) (line off n g : Nat) : LineCheck :=
  if !s.mscHolds line off n && s.lineBad line g then .detect
  else if s.transit.contains line && decide (1 ≤ g) then .transit
  else .good

/-- The traces that a read of a block leaves at its home: a hit of the MSC counts for a window (R196), a read of DRAM
scrubs (R259), a reported transit failure is used up. -/
def State.afterRead (s : State) (line off n g owner : Nat) : State :=
  let s := if s.mscHolds line off n then s.pinHit line else s.scrub line g owner
  if s.transit.contains line && decide (1 ≤ g) then { s with transit := s.transit.filter (· != line) } else s

/-- A read that misses the MSC: a request, of the whole line from grade 1 up, which fills the MSC's sectors where the
access allocates there and the line is good (R198, R199, R201, R259). -/
def State.wantFill (s : State) (vd line off n g : Nat) (alloc : Bool) : State :=
  if s.mscHolds line off n then s
  else s.request vd line (if g = 0 then off else 0) (if g = 0 then n else 128)
    (alloc && !s.lineBad line (s.lineGrade line))

/-- The home finds a line bad that it reads for the hardware itself: a DETECT or TRANSIT record, with no wave, to the owner
of the page (R269). -/
def State.homeRecord (s : State) (line : Nat) (found : LineCheck) : State :=
  let c := s.pageCode line
  let d := s.homeDie (line * 128)
  if found == .good then s
  else s.errorRecord c.vd
    { owner := c.owner, kind := if found == .transit then 2 else 1, grade := c.grade.toNat, eg := 0, die := d, handle := 0,
      line := line * 128, pc := 0, cycle := s.dieCycle d }

/-- A read of some bytes of a line by the hardware itself, a table entry, a parcel or a command: its check, hit and scrub at
the home, and its request (R196, R199, R259, R269). What an uncorrectable line gives is what is stored there (log 80). -/
def State.unitRead (s : State) (vd line off n : Nat) : State :=
  let c := s.pageCode line
  let b := grain off (off + n - 1)
  let found := s.checkLine line b.1 b.2 c.grade.toNat
  ((s.afterRead line b.1 b.2 c.grade.toNat c.owner).wantFill vd line b.1 b.2 c.grade.toNat true).homeRecord line found

/-- The parts of a range of physical memory by line: line, offset, length. -/
def lineRanges (pa n : Nat) : List (Nat × Nat × Nat) :=
  (splitLines pa (List.replicate n 0) (n + 1)).map (fun x => (x.1, x.2.1, x.2.2.length))

/-- A read of n bytes from a physical address up by the hardware itself. -/
def State.unitReads (s : State) (vd pa n : Nat) : State :=
  (lineRanges pa n).foldl (fun s x => s.unitRead vd x.1 x.2.1 x.2.2) s

end Sys2Proof.Machine
end

