-- ==== Sys2Proof/Machine/Translate.lean ====
section
/-! DEFINITION. Address translation: page-table entries, the walk, the checks of a leaf, and the translations that
TLBs keep (R202 to R206, R260). -/

namespace Sys2Proof.Machine

/-- A leaf that a walk reached: its entry, the bytes it maps, and their physical address (R203). -/
structure Leaf where
  entry : Word
  size  : Nat
  frame : Nat
  deriving DecidableEq, Repr

namespace Leaf

def owner (l : Leaf) : Nat := bits l.entry 63 56
def cfi (l : Leaf) : Nat := bits l.entry 55 48
def pin (l : Leaf) : Bool := bit l.entry 10
def ba (l : Leaf) : Bool := bit l.entry 9
def lax (l : Leaf) : Bool := bit l.entry 8
def grade (l : Leaf) : Grade := l.entry.extractLsb' 6 2
def x (l : Leaf) : Bool := bit l.entry 4
def w (l : Leaf) : Bool := bit l.entry 3
def r (l : Leaf) : Bool := bit l.entry 2

end Leaf

/-- A canonical virtual address: bits 63..57 equal bit 56 (R202). -/
def canonical (va : Word) : Bool := bits va 63 56 == 0 || bits va 63 56 == 255

/-- The index of a virtual address at a level (R202). -/
def vaIndex (va : Word) (level : Nat) : Nat :=
  if level = 4 then bits va 56 39 else if level = 3 then bits va 38 30 else if level = 2 then bits va 29 21
  else bits va 20 12

/-- The bytes that a leaf of a level maps (R202). -/
def levelSize (level : Nat) (cont : Bool) : Nat :=
  if level = 3 then 2 ^ 30 else if level = 2 then 2 ^ 21 else if cont then 2 ^ 16 else 2 ^ 12

/-- FRAME as a byte address (R203). -/
def pteFrame (e : Word) : Nat := bits e 47 12 * 2 ^ 12

/-- A table entry is legal: every field but V, LEAF and FRAME is zero (R203, R204). -/
def tableOk (e : Word) : Bool := bits e 63 48 == 0 && bits e 11 6 == 0 && bits e 4 1 == 0

/-- A leaf entry is legal on its own (R204). -/
def leafOk (e : Word) (level : Nat) : Bool :=
  !bit e 1 && !(bit e 3 && !bit e 2)
  && !(bit e 11 && level != 1)
  && !(bit e 9 && (level != 2 || !bit e 10 || decide (1 < bits e 7 6)))

/-- The group of 16 entries of a 64 KiB page: identical fields, FRAME[3:0] equal to the index (R204). -/
def contOk (s : State) (table idx : Nat) (e : Word) : Bool :=
  (List.range 16).all fun i =>
    let e' := s.homeWord (table + 8 * (idx / 16 * 16 + i))
    bits e' 15 12 == i && setBits e' 15 12 0 == setBits e 15 12 0

/-- The address of the check-table entry that a leaf names (R260). -/
def State.checkEntry (s : State) (vd : Nat) (e : Word) : Nat := (s.vd vd).checktab + 16 * bits e 55 48

/-- The named check-table entry serves the grade of the leaf (R260). -/
def checkOk (s : State) (vd : Nat) (e : Word) : Bool :=
  bits e 7 6 == 0 || bits (s.homeWord (s.checkEntry vd e)) 1 0 == bits e 7 6

/-- What a walk reads of the tables, from a level down: addresses and lengths; of a CONT leaf its whole group, of a leaf of
grade 1 or above its entry of the check table (R202 to R204, R260). It reads no further where an entry has no home. -/
def walkPath (s : State) (vd : Nat) (va : Word) (table : Nat) : Nat → List (Nat × Nat)
  | 0 => []
  | level + 1 =>
    let a := table + 8 * vaIndex va (level + 1)
    let e := s.homeWord a
    if s.homeState a != .ok || !bit e 0 then [(a, 8)]
    else if bit e 5 then
      (if bit e 11 then (a / 128 * 128, 128) else (a, 8))
        :: (if bits e 7 6 = 0 then [] else [(s.checkEntry vd e, 16)])
    else (a, 8) :: walkPath s vd va (pteFrame e) level

/-- What the walk of an address of a virtual device reads. -/
def State.walkPathOf (s : State) (vd : Nat) (va : Word) : List (Nat × Nat) :=
  if canonical va then walkPath s vd va (s.vd vd).ptroot 4 else []

/-- The walk from a level down; none is XLATE (R204). A level-1 CONT leaf maps 64 KiB. A level-2 or level-3 leaf whose FRAME
is no multiple of its page's size is none that R204 forbids: the model takes the page that its FRAME lies in (log 77). -/
def walk (s : State) (vd : Nat) (va : Word) (table : Nat) : Nat → Option Leaf
  | 0 => none
  | level + 1 =>
    let idx := vaIndex va (level + 1)
    let e := s.homeWord (table + 8 * idx)
    if !bit e 0 then none
    else if bit e 5 then
      if level + 1 = 4 || !leafOk e (level + 1) || !checkOk s vd e then none
      else if bit e 11 then
        if contOk s table idx e then
          some { entry := e, size := 2 ^ 16, frame := pteFrame e / 2 ^ 16 * 2 ^ 16 }
        else none
      else some { entry := e, size := levelSize (level + 1) false,
                  frame := pteFrame e / levelSize (level + 1) false * levelSize (level + 1) false }
    else if level = 0 || !tableOk e then none
    else walk s vd va (pteFrame e) level

/-- The walk of an address of a virtual device, from its root (R202); none where an entry that it reads has no home (R200,
R405). -/
def State.walkVa (s : State) (vd : Nat) (va : Word) : Option Leaf :=
  if canonical va && (s.walkPathOf vd va).all (fun a => s.homeState a.1 == .ok) then walk s vd va (s.vd vd).ptroot 4 else none

/-- Where an access is translated: a core, as 26 and its key, or a die, an I/O die among them, as its number. -/
def coreAt (key : Nat) : Nat := 26 + key

/-- The die of a place of translation. -/
def dieAt (at' : Nat) : Nat := if at' < 26 then at' else (at' - 26) / 48

/-- The TLBs in which a place of translation looks, each by its number with its entries: the L1 and the L2 TLB of a core,
and the shared TLB of the die (R205). -/
def tlbsOf (at' : Nat) : List (Nat × Nat) :=
  if at' < 26 then [(at', 32768)]
  else [(100 + 2 * (at' - 26), 64), (101 + 2 * (at' - 26), 2048), (dieAt at', 32768)]

/-- The walk of a die: in Twilight service a leaf of grade 2 or 3 is refused (R401). -/
def State.walkFor (s : State) (at' vd : Nat) (va : Word) : Option Leaf :=
  (s.walkVa vd va).filter (fun l => (s.die (dieAt at')).service != .twilight || decide (l.grade.toNat < 2))

/-- The entry of a TLB for an address. -/
def State.tlbEntry (s : State) (tlb vd : Nat) (va : Word) : Option TlbEntry :=
  s.tlb.find? (fun t => t.tlb == tlb && t.vd == vd && va.toNat / t.size == t.page)

/-- The translation that the TLBs of a place keep for an address, the nearest TLB's first (R205). -/
def State.cached (s : State) (at' vd : Nat) (va : Word) : Option Leaf :=
  ((tlbsOf at').findSome? (fun x => s.tlbEntry x.1 vd va)).map
    (fun t => { entry := t.leaf, size := t.size, frame := pteFrame t.leaf / t.size * t.size })

/-- The leaf that an access uses: the walk's, or a kept one that differs, which of the two is free until the
shootdown (R206, log 5). -/
def State.leafOf (s : State) (at' vd : Nat) (va : Word) : Option Leaf :=
  let w := s.walkFor at' vd va
  match s.cached at' vd va with
  | none => w
  | some l =>
    if w = some l then w
    else if Config.freeChoice (Nat.pair s.free (va.toNat / 4096)) % 2 = 0 then some l else w

/-- The right that an access needs (R204). -/
def Leaf.allows (l : Leaf) : Access → Bool
  | .load => l.r
  | .store => l.w
  | .atomic => l.r && l.w
  | .fetch => l.x

/-- Why an access fails in translation or at its home. -/
inductive MemFault where
  | xlate | perm | cxlDown
  deriving DecidableEq, Repr

/-- How an access fails whose address has no leaf: where an entry of the tables has no home, as an access to that entry
fails (R200, R351, R405; log 66); else by XLATE (R204). -/
def State.walkFault (s : State) (vd : Nat) (va : Word) : MemFault :=
  ((s.walkPathOf vd va).findSome? (fun a =>
    match s.homeState a.1 with
    | .ok => none
    | .none => some .perm
    | .cxlDown => some .cxlDown)).getD .xlate

/-- The physical address that a leaf gives. -/
def Leaf.pa (l : Leaf) (va : Word) : Nat := l.frame + va.toNat % l.size

/-- Translation of one address for an access, with the check of rights and of the home (R200, R202 to R204). -/
def State.translate (s : State) (at' vd : Nat) (va : Word) (acc : Access) : Except MemFault (Leaf × Nat) :=
  match s.leafOf at' vd va with
  | none => .error (s.walkFault vd va)
  | some l =>
    if !l.allows acc then .error .perm
    else match s.homeState (l.pa va) with
      | .ok => .ok (l, l.pa va)
      | .none => .error .perm
      | .cxlDown => .error .cxlDown

/-- A walk reads its entries at their homes (R196, R199, R205, R269). -/
def State.walkReads (s : State) (vd : Nat) (va : Word) : State :=
  (s.walkPathOf vd va).foldl (fun s a => if s.homeState a.1 == .ok then s.unitReads vd a.1 a.2 else s) s

/-- An entry put into a TLB that has it not; a full one gives one up, which one is free (R205, log 29). -/
def State.tlbPut (s : State) (tlb cap vd : Nat) (va : Word) (l : Leaf) : State :=
  if (s.tlbEntry tlb vd va).isSome then s
  else
    let e : TlbEntry := { tlb := tlb, vd := vd, page := va.toNat / l.size, size := l.size, leaf := l.entry }
    let mine := s.tlb.filter (fun t => t.tlb == tlb)
    if mine.length < cap then { s with tlb := e :: s.tlb }
    else match mine[Config.freeChoice s.free % mine.length]? with
      | some v => { s with tlb := e :: s.tlb.erase v, free := s.free + 1 }
      | none => s

/-- What the home knows of the page of an address from the leaf that an access uses (R203, R260). -/
def State.noteCode (s : State) (vd : Nat) (va : Word) (l : Leaf) : State :=
  let e := s.checkEntry vd l.entry
  let code : PageCode :=
    { vd := vd, owner := l.owner, grade := l.grade, check := bits (s.homeWord e) 51 18 * 2 ^ 18,
      mirror := bits (s.homeWord (e + 8)) 51 21 * 2 ^ 21 }
  { s with codes := TabOps.put s.codes (l.pa va / 4096) code }

/-- What an access leaves of its translation: a walk where no TLB had it, the leaf in every TLB on its way (R205), and
the page's code at its home (R260); a kept leaf that no longer agrees with the tables has used up a free choice. A walk that
finds no leaf has read the tables, and caches nothing (R204). -/
def State.keep (s : State) (at' vd : Nat) (va : Word) : State :=
  match s.leafOf at' vd va with
  | none => s.walkReads vd va
  | some l =>
    let s1 := if (s.cached at' vd va).isNone then s.walkReads vd va else s
    let s2 := (tlbsOf at').foldl (fun s x => s.tlbPut x.1 x.2 vd va l) (s1.noteCode vd va l)
    match s.cached at' vd va with
    | none => s2
    | some k => if s.walkFor at' vd va = some k then s2 else { s2 with free := s2.free + 1 }

/-- The pieces of an access of n bytes, none crossing a 4 KiB boundary (R208): addresses and lengths. -/
def pieces (va : Word) (n : Nat) : List (Word × Nat) :=
  if n = 0 then []
  else
    let room := 4096 - va.toNat % 4096
    if n ≤ room then [(va, n)] else [(va, room), (va + BitVec.ofNat 64 room, n - room)]

end Sys2Proof.Machine
end

