-- ==== Sys2Proof/Machine/L1.lean ====
section
/-! DEFINITION. The L1s: what a line holds, fills, stores, write-backs, releases and acquires, promotion, and
atomics (R187 to R192, R197, R198, R210, R211, R224, R225). -/

namespace Sys2Proof.Machine

/-- The path of a wave's accesses: wave, place of translation (R205), die, core, device, team, the cores that form its L1
(R190, R192), and the replay that it belongs to, whose stores stand apart from memory (R241, R404). `acq` and `rel` are the
scopes at which the instruction's loads acquire and its stores release, `rmw` says that it is an atomic (R212, R234). -/
structure Route where
  wave  : Nat
  at'   : Nat
  die   : Nat
  core  : Nat
  vd    : Nat
  team  : Nat
  fused : List Nat
  prot  : Bool
  shadow : Option Nat := none
  acq    : Option Nat := none
  rel    : Option Nat := none
  rmw    : Bool := false
  deriving DecidableEq, Repr

namespace Route

/-- The core key of the wave's own core. -/
def own (r : Route) : Nat := coreKey r.die r.core

/-- The sharing scope of the L1, coded as in R80: core, or neighbourhood when fused (R190). -/
def share (r : Route) : Nat := if r.fused.isEmpty then 2 else 3

/-- Every core whose slice belongs to the L1. -/
def cores (r : Route) : List Nat := if r.fused.isEmpty then [r.own] else r.fused

/-- The core that holds the line of an address (R192). -/
def slice (r : Route) (pa : Nat) : Nat :=
  if r.fused.isEmpty then r.own
  else
    let g := pa / 2 ^ 7 % 256 ^^^ pa / 2 ^ 15 % 256 ^^^ pa / 2 ^ 23 % 256 ^^^ pa / 2 ^ 31 % 256 ^^^ pa / 2 ^ 39 % 256
    r.fused.getD (g % r.fused.length) r.own

end Route

/-- The core of a placement-map entry o, for a neighbourhood with its origin at core `origin` of an 8 × 6 mesh
(R1, R152). -/
def placeCore (origin o : Nat) : Nat := origin + o

/-- The cores that a neighbourhood's map names, with its origin on a die (R152). -/
def Packet.coresAt (p : Packet) (die origin : Nat) : List Nat := p.map.map (fun o => coreKey die (placeCore origin o))

/-- The cores that a neighbourhood with a fused L1 names (R192). -/
def State.fusedCores (s : State) (g : Grid) (nb : Nat) : List Nat :=
  if g.packet.fuse then
    match TabOps.find? s.nbs nb with
    | some n => g.packet.coresAt n.die n.origin
    | none => []
  else []

/-- The cores whose slices form one L1 with that of a core, itself among them (R192). -/
def State.fusedWith (s : State) (key : Nat) : List Nat :=
  (s.nbs.findSome? (fun n =>
    if n.2.life == .placed || n.2.life == .stopping then
      ((TabOps.find? s.grids n.2.grid).map (fun g => s.fusedCores g n.1)).filter (fun ks => ks.contains key)
    else none)).getD [key]

/-- The L1 line that a core holds for a line. -/
def State.l1 (s : State) (key line : Nat) : Option L1Line := TabOps.find? (s.core key).l1 line

/-- An L1 line replaced. -/
def State.setL1 (s : State) (key line : Nat) (l : L1Line) : State :=
  s.setCore key { s.core key with l1 := TabOps.put (s.core key).l1 line l }

/-- An L1 line dropped. -/
def State.dropL1 (s : State) (key line : Nat) : State :=
  s.setCore key { s.core key with l1 := TabOps.drop (s.core key).l1 line }

/-- An empty L1 line of a team. -/
def L1Line.empty (team : Nat) (prot : Bool) : L1Line :=
  { data := List.replicate 128 0, valid := 0, dirty := 0, sc := 0, prot := prot, team := team }

/-- The L1 serves a byte: a dirty one always, a clean one only when the scope is no wider than the sharing scope
(R210). -/
def State.l1Serves (s : State) (key pa : Nat) (wide : Bool) : Bool :=
  match s.l1 key (pa / 128) with
  | some l => l.dirty.getLsbD (pa % 128) || (!wide && l.valid.getLsbD (pa % 128 / 16))
  | none => false

/-- The byte that a load sees: the L1's where it serves it, else the home's (R210). -/
def State.viewByte (s : State) (key pa : Nat) (wide : Bool) : Byte :=
  match s.l1 key (pa / 128) with
  | some l =>
    if l.dirty.getLsbD (pa % 128) || (!wide && l.valid.getLsbD (pa % 128 / 16)) then l.data.getD (pa % 128) 0
    else s.homeByte pa
  | none => s.homeByte pa

/-- n bytes that a load sees from an address up. -/
def State.viewBytes (s : State) (r : Route) (pa : Nat) (wide : Bool) : Nat → List Byte
  | 0 => []
  | n + 1 => s.shadowed r.shadow pa (s.viewByte (r.slice pa) pa wide) :: s.viewBytes r (pa + 1) wide n

/-! ### Write-back -/

/-- The owner of a line given up by a core whose line is clean (R224). -/
def State.disown (s : State) (key line : Nat) : State :=
  if TabOps.find? s.owners line = some key then { s with owners := TabOps.drop s.owners line } else s

/-- The sectors of which a mask names every byte. -/
def wholeSectors (mask : BitVec 128) : BitVec 8 :=
  (List.range 8).foldl (fun m i =>
    if (List.range 16).all (fun j => mask.getLsbD (16 * i + j)) then m ||| BitVec.ofNat 8 (2 ^ i) else m) 0

/-- The dirty bytes of a line written to its home; the line stays, clean (R189, R190): sectors that were dirty throughout are
valid, while bytes of other sectors leave the L1 with the write-back unless their sector was valid (log 83). -/
def State.writeBackLine (s : State) (key line : Nat) : State :=
  match s.l1 key line with
  | none => s
  | some l =>
    if l.dirty = 0 then s
    else
      ((s.homeMerge line l.dirty l.data true).setL1 key line
        { l with
          valid := l.valid ||| wholeSectors l.dirty
          dirty := 0 }).disown key line

/-- The lines of an L1 whose dirty bytes a release at a scope covers (R190). -/
def State.dirtyLines (s : State) (key scope : Nat) : List Nat :=
  ((s.core key).l1.filter (fun c => c.2.dirty != 0 && decide (c.2.sc.toNat ≤ scope))).map Prod.fst

/-- All dirty bytes of an L1 up to a scope written to their homes (R190, R225). -/
def State.writeBack (s : State) (key scope : Nat) : State :=
  (s.dirtyLines key scope).foldl (fun s line => s.writeBackLine key line) s

/-- A release of a wave noted, with that by which an acquire pairs with it (R235). -/
def State.noteRelease (s : State) (wid scope : Nat) (key : Sync) : State := s.note (.released (s.spotOf wid) scope key)

/-- An acquire of a wave noted, with that by which it pairs with releases (R235). -/
def State.noteAcquire (s : State) (wid scope : Nat) (keys : List Sync) : State :=
  if keys.isEmpty then s else s.note (.acquired (s.spotOf wid) scope keys)

/-- A release at a scope: no write-back when the L1 is shared that widely (R190). -/
def State.release (s : State) (r : Route) (scope : Nat) (key : Sync) : State :=
  let s := s.noteRelease r.wave scope key
  if scope ≤ r.share then s else r.cores.foldl (fun s key => s.writeBack key scope) s

/-- The clean bytes of an L1 invalidated; dirty bytes stay (R191). -/
def State.invalidate (s : State) (key : Nat) : State :=
  s.setCore key { s.core key with
    l1 := ((s.core key).l1.map (fun c => (c.1, { c.2 with valid := 0 }))).filter (fun c => c.2.dirty != 0) }

/-- An acquire at a scope: no invalidation when the L1 is shared that widely (R191). -/
def State.acquire (s : State) (r : Route) (scope : Nat) (keys : List Sync) : State :=
  let s := s.noteAcquire r.wave scope keys
  if scope ≤ r.share then s else r.cores.foldl (fun s key => s.invalidate key) s

/-- An L1 written back and emptied (R192, R157). -/
def State.flushL1 (s : State) (key : Nat) : State :=
  let s := s.writeBack key 7
  s.setCore key { s.core key with l1 := [] }

/-! ### Ownership (R224, R225) -/

/-- A promotion request at a core: it writes back every dirty byte of its L1, of a fused one in every slice (R192,
R225). -/
def State.promote (s : State) (key scope : Nat) : State :=
  (s.fusedWith key).foldl (fun s k => s.writeBack k scope) s

/-- The ownership notice of a store that made a clean line dirty; a displaced owner is promoted first (R224). -/
def State.notice (s : State) (key line : Nat) : State :=
  let s := match TabOps.find? s.owners line with
    | some q => if q = key then s else s.promote q 6
    | none => s
  { s with owners := TabOps.put s.owners line key }

/-! ### Fills (R191, R197, R198) -/

/-- The teams that hold slots on a core: until they retire or are saved (R157). -/
def State.residents (s : State) (key : Nat) : List (Nat × Team) :=
  s.teams.filter (fun t => coreKey t.2.die t.2.core == key
    && (t.2.life == .running || t.2.life == .held || t.2.life == .ended))

/-- The ways of an L1: 48 and the extra L1 of the teams that are resident on the core (R187). -/
def State.l1Ways (s : State) (key : Nat) : Nat :=
  48 + (s.residents key).foldl (fun n t => n + t.2.l1x / 16) 0

/-- A way for a line in its set: the lowest free one, else that of a victim, which one is free, unprotected lines first
(R191, log 11). -/
def State.l1Room (s : State) (key line : Nat) : State × Nat :=
  let rivals := (s.core key).l1.filter (fun c => c.1 != line && c.1 % 128 == line % 128)
  match (List.range (s.l1Ways key)).find? (fun k => !rivals.any (fun c => c.2.way == k)) with
  | some k => (s, k)
  | none =>
    let open' := rivals.filter (fun c => !c.2.prot)
    let pool := if open'.isEmpty then rivals else open'
    match pool[Config.freeChoice s.free % pool.length]? with
    | some v =>
      let s := (s.writeBackLine key v.1).dropL1 key v.1
      ({ s with free := s.free + 1 }, v.2.way)
    | none => (s, 0)

/-- Lines in ways that the L1 no longer has are written back and dropped (R187, R188). -/
def State.shrinkL1 (s : State) (key : Nat) : State :=
  let n := s.l1Ways key
  (((s.core key).l1.filter (fun c => decide (n ≤ c.2.way))).map Prod.fst).foldl
    (fun s line => (s.writeBackLine key line).dropL1 key line) s

/-- The sectors that a block of a line covers. -/
def sectorMask (off n : Nat) : BitVec 8 :=
  BitVec.ofNat 8 ((2 ^ ((off + n + 15) / 16 - off / 16) - 1) * 2 ^ (off / 16))

/-- The data of a line after a fill of a block: bytes that the L1 serves stay. -/
def fillData (s : State) (key line off n : Nat) (l : L1Line) (wide : Bool) : List Byte :=
  (List.range 128).map fun i =>
    if off ≤ i ∧ i < off + n then s.viewByte key (line * 128 + i) wide else l.data.getD i 0

/-- The sectors of a block filled, in a line that is allocated if absent (R198). -/
def State.fillL1 (s : State) (r : Route) (key line off n : Nat) (wide : Bool) : State :=
  match s.l1 key line with
  | some l => s.setL1 key line { l with data := fillData s key line off n l wide, valid := l.valid ||| sectorMask off n }
  | none =>
    let l := L1Line.empty r.team r.prot
    let x := s.l1Room key line
    x.1.setL1 key line { l with data := fillData s key line off n l wide, valid := sectorMask off n, way := x.2 }

/-! ### Loads -/

/-- One part of an access: the lane or element it belongs to, its address and length inside one page. -/
structure Part where
  lane : Nat
  va   : Word
  pa   : Nat
  n    : Nat
  leaf : Leaf
  deriving DecidableEq, Repr

/-- The lines of a part. -/
def Part.lines (p : Part) : List Nat := (List.range ((p.pa + p.n - 1) / 128 + 1 - p.pa / 128)).map (· + p.pa / 128)

/-- The offsets, first and last, of the bytes of a part in a line that it touches. -/
def Part.span (p : Part) (line : Nat) : Nat × Nat :=
  (if p.pa / 128 = line then p.pa % 128 else 0,
   if (p.pa + p.n - 1) / 128 = line then (p.pa + p.n - 1) % 128 else 127)

/-- The different lines of an instruction, in first-touched order. -/
def partLines (ps : List Part) : List Nat := (ps.flatMap Part.lines).eraseDups

/-- The block of one line that an instruction requests (R197). -/
def lineBlock (ps : List Part) (line : Nat) : Nat × Nat :=
  let spans := (ps.filter (fun p => p.lines.contains line)).map (fun p => p.span line)
  grain (spans.foldl (fun a x => min a x.1) 127) (spans.foldl (fun a x => max a x.2) 0)

/-- The leaf of the first part in a line. -/
def lineLeaf (ps : List Part) (line : Nat) : Option Leaf :=
  (ps.find? (fun p => p.lines.contains line)).map Part.leaf

/-- The L1 serves every byte that a part has in a line. -/
def State.partServed (s : State) (r : Route) (wide : Bool) (p : Part) (line : Nat) : Bool :=
  let sp := p.span line
  (List.range (sp.2 + 1 - sp.1)).all
    (fun i => s.l1Serves (r.slice (line * 128)) (line * 128 + sp.1 + i) wide)

/-- The L1 serves every byte that the instruction touches in a line: no request leaves. -/
def State.lineServed (s : State) (r : Route) (wide : Bool) (ps : List Part) (line : Nat) : Bool :=
  (ps.filter (fun p => p.lines.contains line)).all (fun p => s.partServed r wide p line)

/-- What a request of one line finds at its home. -/
def State.lineFound (s : State) (ps : List Part) (line : Nat) : LineCheck :=
  match lineLeaf ps line with
  | none => .good
  | some l => s.checkLine line (lineBlock ps line).1 (lineBlock ps line).2 l.grade.toNat

/-- A bad line that an instruction met: line, what was found, and the page's leaf. -/
abbrev Bad := List (Nat × LineCheck × Leaf)

/-- The lines that an instruction requests and finds bad (R259, R261). -/
def State.badLines (s : State) (r : Route) (wide : Bool) (ps : List Part) : Bad :=
  (partLines ps).filterMap fun line =>
    if s.lineServed r wide ps line then none
    else match s.lineFound ps line, lineLeaf ps line with
      | .good, _ => none
      | c, some l => some (line, c, l)
      | _, none => none

/-- A part that receives bytes of a bad line from its home. -/
def State.partBad (s : State) (r : Route) (wide : Bool) (bad : Bad) (p : Part) : Bool :=
  p.lines.any (fun line => bad.any (fun b => b.1 == line) && !s.partServed r wide p line)

/-- The bytes of a part as a load receives them; of a bad line they are free (log 5). -/
def State.partBytes (s : State) (r : Route) (wide : Bool) (bad : Bad) (p : Part) : List Byte :=
  if s.partBad r wide bad p then
    leBytes (Config.freeWord (Nat.pair s.free p.pa)).toNat p.n
  else s.viewBytes r p.pa wide p.n

/-- The state after the requests of one line of a load: scrubs, the fill of the home MSC, and the fill of the L1
that a plain access allocates or that a wide load refreshes (R191, R198, R201, R210). -/
def State.loadLine (s : State) (r : Route) (wide : Bool) (hint : Nat) (ps : List Part) (line : Nat) : State :=
  if s.lineServed r wide ps line then s
  else match lineLeaf ps line with
    | none => s
    | some leaf =>
      let b := lineBlock ps line
      let g := leaf.grade.toNat
      let found := s.lineFound ps line
      let key := r.slice (line * 128)
      let s := s.afterRead line b.1 b.2 g leaf.owner
      if found == .good then
        let s := s.wantFill r.vd line b.1 b.2 g (hint != 2)
        if hint == 0 || (wide && (s.l1 key line).isSome) then s.fillL1 r key line b.1 b.2 wide else s
      else s

/-- The state after the requests of a load (R197). -/
def State.loadParts (s : State) (r : Route) (scope hint : Nat) (ps : List Part) : State :=
  let wide := decide (r.share < scope)
  let s' := (partLines ps).foldl (fun s line => s.loadLine r wide hint ps line) s
  { s' with free := bif (s.badLines r wide ps).isEmpty then s'.free else s'.free + 1 }

/-- The port of a part of which the CXL tier itself serves a byte, and the first such byte: no L1 and no MSC holds it
(R351). -/
def State.fromCxl (s : State) (r : Route) (wide : Bool) (p : Part) : Option (Nat × Nat) :=
  if p.pa < hbmTop then none
  else match (List.range p.n).find? (fun i => !(s.l1Serves (r.slice (p.pa + i)) (p.pa + i) wide
      || s.mscHolds ((p.pa + i) / 128) ((p.pa + i) % 128) 1)) with
    | some i => (cxlOf p.pa).map (fun x => (x.1, i))
    | none => none

/-- The reads of an engine, or of a fill past the L1, at the homes of its lines: hits, scrubs and requests (R196, R199,
R201, R259). -/
def State.homeReads (s : State) (vd : Nat) (ps : List Part) : State :=
  (partLines ps).foldl (fun s line =>
    match lineLeaf ps line with
    | none => s
    | some l =>
      let b := lineBlock ps line
      (s.afterRead line b.1 b.2 l.grade.toNat l.owner).wantFill vd line b.1 b.2
        l.grade.toNat true) s

/-! ### Stores -/

/-- The bytes of one line that a mask names, noted as stored by a wave's instruction (R43, R235). -/
def State.noteStore (s : State) (r : Route) (bytes : Mem) : State :=
  s.note (.wrote { by' := s.spotOf r.wave, bytes := bytes, rel := r.rel, rmw := r.rmw })

/-- The bytes of one line that a mask names stored at a scope with a hint: narrower than die they stay dirty in the L1, die
or wider they are written through to the home, with `.by` past an MSC that does not hold the line; a plain store that
misses allocates a line (R190, R191, R201, R210). A sector that it writes whole through to the home becomes valid, a part of
one that was not stays out of the L1 (log 83). -/
def State.storeLive (s : State) (r : Route) (scope hint line : Nat) (mask : BitVec 128) (data : List Byte) : State :=
  let key := r.slice (line * 128)
  let s := s.noteStore r (lineCells line mask data)
  match s.l1 key line with
  | some l =>
    let l' := { l with data := mergeBytes mask data l.data }
    if 4 ≤ scope then (s.setL1 key line { l' with
        valid := l.valid ||| wholeSectors mask
        dirty := l.dirty &&& ~~~mask }).homeMerge line mask data (hint != 2)
    else
      let s := if l.dirty = 0 then s.notice key line else s
      s.setL1 key line { l' with dirty := l.dirty ||| mask, sc := BitVec.ofNat 3 scope }
  | none =>
    if hint != 0 then s.homeMerge line mask data (hint != 2)
    else
      let x := s.l1Room key line
      let l := { L1Line.empty r.team r.prot with data := mergeBytes mask data (List.replicate 128 0), way := x.2 }
      if 4 ≤ scope then (x.1.setL1 key line { l with valid := wholeSectors mask }).homeMerge line mask data true
      else (x.1.notice key line).setL1 key line { l with dirty := mask, sc := BitVec.ofNat 3 scope }

/-- The bytes of one line that a mask names stored for a wave: in the caches and memory, or apart from them by a replay
(R241). -/
def State.storeLine (s : State) (r : Route) (scope hint line : Nat) (mask : BitVec 128) (data : List Byte) : State :=
  match r.shadow with
  | some n => s.shadowLine n line mask data
  | none => s.storeLive r scope hint line mask data

/-- n bytes of a line from an offset stored. -/
def State.storePart (s : State) (r : Route) (scope hint line off : Nat) (bs : List Byte) : State :=
  s.storeLine r scope hint line (ones off bs.length) (putBytes (List.replicate 128 0) off bs)

/-- What an instruction with `.acq` reads, by address: its acquire pairs with the releases that wrote it (R235). -/
def State.noteRead (s : State) (r : Route) (got : List (Nat × List Byte)) : State :=
  match r.acq with
  | some x => s.noteAcquire r.wave x (got.map (fun g => .read g.1 g.2))
  | none => s

/-! ### Atomics (R210) -/

/-- The line of an atomic as the place where it is performed finds it: for one at the home, the L1's dirty bytes of the
line are written back first, and its copy of the element is invalidated (R210). -/
def State.atomicPlace (s : State) (r : Route) (scope pa n : Nat) : State :=
  if scope ≤ r.share then s
  else
    let key := r.slice pa
    let line := pa / 128
    let s := s.writeBackLine key line
    match s.l1 key line with
    | some l => s.setL1 key line { l with valid := l.valid &&& ~~~(sectorMask (pa % 128) n) }
    | none => s

/-- The lines of an instruction's atomics as `atomicPlace` leaves them. -/
def State.atomicOpen (s : State) (r : Route) (scope : Nat) (ps : List Part) : State :=
  ps.foldl (fun s p => s.atomicPlace r scope p.pa p.n) s

/-- The requests of an instruction's atomics, one for each line, where they are performed (R197 to R199, R210). -/
def State.atomicReads (s : State) (r : Route) (scope : Nat) (ps : List Part) : State :=
  if scope ≤ r.share then (partLines ps).foldl (fun s line => s.loadLine r false 0 ps line) s else s.homeReads r.vd ps

/-- An atomic read-modify-write of n bytes of one line, for an element that is not uncorrectable: in the L1 line
when the scope is no wider than the sharing scope, else at the home; `atomicReads` has made its request. One with `.acq`
acquires by what it reads, before it writes (R212, R235). -/
def State.atomicAt (s : State) (r : Route) (scope pa n : Nat) (leaf : Leaf) (f : Nat → Nat) : State × Nat :=
  let line := pa / 128
  if scope ≤ r.share then
    let p : Part := { lane := 0, va := 0, pa := pa, n := n, leaf := leaf }
    let s := s.loadLine r false 0 [p] line
    let got := s.viewBytes r pa false n
    let old := leValue got
    ((s.noteRead r [(pa, got)]).storePart r scope 0 line (pa % 128) (leBytes (f old) n), old)
  else
    let s := s.atomicPlace r scope pa n
    let got := s.homeSeen r.shadow pa n
    let old := leValue got
    let bs := leBytes (f old) n
    (match r.shadow with
     | some k => s.shadowBytes k pa bs
     | none =>
       let mask := ones (pa % 128) n
       let data := putBytes (List.replicate 128 0) (pa % 128) bs
       ((s.noteRead r [(pa, got)]).noteStore r (lineCells line mask data)).homeMerge line mask data true, old)

/-- The element of an atomic is uncorrectable: its line is bad where the atomic would be performed, as `atomicPlace`
leaves it (R210, R220). -/
def State.atomicBad (s : State) (r : Route) (scope pa n : Nat) (leaf : Leaf) : Option LineCheck :=
  let key := r.slice pa
  let wide := decide (r.share < scope)
  if !wide && (List.range n).all (fun i => s.l1Serves key (pa + i) false) then none
  else match s.checkLine (pa / 128) (grain (pa % 128) (pa % 128 + n - 1)).1 (grain (pa % 128) (pa % 128 + n - 1)).2
      leaf.grade.toNat with
    | .good => none
    | c => some c

end Sys2Proof.Machine
end

