-- ==== Sys2Proof/Machine/Ops.lean ====
section
/-! DEFINITION. The named operations over waves: registers with tags and poison (R38, R39, R95), the executing
fragment, finishing and waiting, error records and the origin latch (R268, R269), and taking a trap and returning
from it (R340 to R346). -/

namespace Sys2Proof.Machine

/-! ### The executing fragment -/

/-- What an instruction executes in: the wave and fragment numbers, the instruction's length, and the wave, the
fragment, its team and its grid as they stand. -/
structure Ctx where
  wid  : Nat
  fid  : Nat
  ilen : Nat
  w    : Wave
  f    : Fragment
  t    : Team
  g    : Grid
  deriving DecidableEq, Repr

/-- The fragment that an entry of a wave holds. -/
def Wave.frag? (w : Wave) (f : Nat) : Option Fragment := (w.frags.getD f none)

/-- The context that `cur` names; none if it names no fragment of a team of a grid. -/
def State.ctx? (s : State) : Option Ctx :=
  match s.cur with
  | none => none
  | some c =>
    match TabOps.find? s.waves c.wave with
    | none => none
    | some w =>
      match w.frag? c.frag, TabOps.find? s.teams w.team, TabOps.find? s.grids w.grid with
      | some f, some t, some g => some { wid := c.wave, fid := c.frag, ilen := c.ilen, w := w, f := f, t := t, g := g }
      | _, _, _ => none

/-- The meaning of a wave instruction: its effect on the executing fragment. -/
def withCtx (s : State) (k : Ctx → State) : Out State :=
  match s.ctx? with
  | some c => .next (k c)
  | none => .fault .noFragment

/-- A wave replaced. -/
def State.setWave (s : State) (i : Nat) (w : Wave) : State := { s with waves := TabOps.put s.waves i w }

/-- A team replaced. -/
def State.setTeam (s : State) (i : Nat) (t : Team) : State := { s with teams := TabOps.put s.teams i t }

/-- A grid replaced. -/
def State.setGrid (s : State) (i : Nat) (g : Grid) : State := { s with grids := TabOps.put s.grids i g }

/-- A wave changed by a function, if it is there. -/
def State.modWave (s : State) (i : Nat) (h : Wave → Wave) : State :=
  match TabOps.find? s.waves i with
  | some w => s.setWave i (h w)
  | none => s

/-- A team changed by a function, if it is there. -/
def State.modTeam (s : State) (i : Nat) (h : Team → Team) : State :=
  match TabOps.find? s.teams i with
  | some t => s.setTeam i (h t)
  | none => s

/-- A grid changed by a function, if it is there. -/
def State.modGrid (s : State) (i : Nat) (h : Grid → Grid) : State :=
  match TabOps.find? s.grids i with
  | some g => s.setGrid i (h g)
  | none => s

/-- A fragment entry replaced. -/
def Wave.setFrag (w : Wave) (i : Nat) (f : Fragment) : Wave := { w with frags := setAt w.frags i (some f) }

/-- A fragment entry freed. -/
def Wave.dropFrag (w : Wave) (i : Nat) : Wave := { w with frags := setAt w.frags i none }

/-- The entries of a wave that hold a fragment. -/
def Wave.live (w : Wave) : List (Nat × Fragment) :=
  (List.range w.frags.length).filterMap (fun i => (w.frag? i).map (fun f => (i, f)))

/-- The mask of all lanes of a wave. -/
def Wave.all (w : Wave) : LaneMask := BitVec.ofNat 128 (2 ^ w.width - 1)

/-- The core on which a wave runs. -/
def Wave.key (w : Wave) : Nat := coreKey w.die w.core

/-- Where a wave's accesses are translated (R205). -/
def Wave.at' (w : Wave) : Nat := coreAt w.key

/-- CYCLE of the core on which a wave runs (R46). -/
def State.cycleOf (s : State) (w : Wave) : Word := (s.core w.key).cycle

/-- The cycle by which a wave's bounds and deadlines count: CYCLE, or that of its stop (R158, R182). -/
def State.timeOf (s : State) (w : Wave) : Word := w.stopAt.getD (s.cycleOf w)

/-- A wave that runs is stopped for a save: its bounds and deadlines count no further (R158, R182). -/
def State.stopWave (s : State) (i : Nat) : State :=
  s.modWave i (fun w => if w.life = .running && w.stopAt.isNone then { w with stopAt := some (s.cycleOf w) } else w)

/-- A fragment began to wait before another one; the cycles are compared as they stand round a save (R344, R354). -/
def Fragment.older (f g : Fragment) : Bool := (f.since - g.since).msb

/-! ### Finishing, waiting -/

/-- The grade that GRLIM set takes hold (R279). -/
def Wave.applyEg (w : Wave) : Wave :=
  match w.egNext with
  | some g => { w with gst := setBits w.gst 1 0 g.toNat, egNext := none }
  | none => w

/-- The chain ends: all latches become invalid (R41, R82). -/
def Wave.endChain (w : Wave) : Wave := { w.applyEg with latches := [], alts := [], chainDis := false }

/-- A fragment goes on or waits: the chain ends if it is the fragment's own or the fragment executes, but not a chain of
another one, within which the pipe does not switch (R81, R162). -/
def State.endChainFor (s : State) (wid fid : Nat) (w : Wave) : Wave :=
  if w.latches.isEmpty || w.chainFrag == fid || s.cur.any (fun c => c.wave == wid && c.frag == fid) then w.endChain
  else w

/-- The context of an instruction that is not in the chain before it (R279). -/
def Ctx.ended (c : Ctx) : Ctx := { c with w := c.w.applyEg }

/-- The meaning of an instruction that ends the chain before it. -/
def withEnd (s : State) (k : Ctx → State) : Out State := withCtx s fun c => k c.ended

/-- The fragment goes on at an address. -/
def Fragment.at' (f : Fragment) (pc : Word) : Fragment :=
  { f with pc := pc, park := .ready, plen := 0, waited := [], yielded := false, stalled := false }

/-- The address after the instruction. -/
def Ctx.after (c : Ctx) : Word := c.f.pc + BitVec.ofNat 64 c.ilen

/-- A scalar instruction ends: the chain ends (R40) and the fragment goes on at an address. -/
def Ctx.jump (c : Ctx) (s : State) (w : Wave) (pc : Word) : State :=
  s.setWave c.wid (w.endChain.setFrag c.fid (c.f.at' pc))

/-- A scalar instruction ends and the next one follows (R43). -/
def Ctx.next (c : Ctx) (s : State) (w : Wave) : State := c.jump s w c.after

/-- The fragment waits at the instruction, which goes on when the wait ends. -/
def Ctx.wait (c : Ctx) (s : State) (w : Wave) (p : Park) : State :=
  s.setWave c.wid (w.endChain.setFrag c.fid
    { c.f with park := p, plen := c.ilen, since := s.cycleOf w })

/-- The fragment stalls at the instruction as on the scoreboard; a chain goes on (R129, R292). -/
def Ctx.stall (c : Ctx) (s : State) (p : Park) : State :=
  s.setWave c.wid (c.w.setFrag c.fid { c.f with park := p, plen := c.ilen, since := s.cycleOf c.w })

/-! ### Registers (R38, R39, R95) -/

/-- A scalar register; S0 reads as 0. -/
def Wave.s (w : Wave) (r : SReg) : Word := if r = 0 then 0 else (w.sregs.getD r.toNat ⟨0, 0⟩).val

/-- The grade tag of a scalar register. -/
def Wave.stag (w : Wave) (r : SReg) : Grade := (w.sregs.getD r.toNat ⟨0, 0⟩).tag

/-- A scalar register written with its tag; a write to S0 is discarded. -/
def Wave.setS (w : Wave) (r : SReg) (v : Word) (t : Grade) : Wave :=
  if r = 0 then w else { w with sregs := setAt w.sregs r.toNat ⟨v, t⟩ }

/-- A vector register. -/
def Wave.v (w : Wave) (r : Nat) : VRegV := w.vregs.getD r ⟨[], 0, 0⟩

/-- A lane of a vector register or a latch. -/
def VRegV.lane (x : VRegV) (l : Nat) : Lane := x.lanes.getD l 0

/-- Active lanes take new values, the others keep theirs (R45). -/
def mergeLanes (w : Nat) (mask : LaneMask) (new old : List Lane) : List Lane :=
  (List.range w).map (fun l => if mask.getLsbD l then new.getD l 0 else old.getD l 0)

/-- A vector register written in the active lanes (R39): the tag is the result's when all lanes are active, else
the smaller of it and the old one; the poison of the inactive lanes stays. Without an active lane nothing is
written (R45, log 13). -/
def Wave.setV (w : Wave) (mask : LaneMask) (r : Nat) (x : VRegV) : Wave :=
  if mask = 0 then w else
  let old := w.v r
  let new : VRegV :=
    { lanes := mergeLanes w.width mask x.lanes old.lanes
      tag := if mask = w.all then x.tag else Grade.min x.tag old.tag
      poison := (x.poison &&& mask) ||| (old.poison &&& ~~~mask) }
  { w with vregs := setAt w.vregs r new }

/-- A 64-bit pair written in the active lanes: both registers get one tag and one poison mask (R39). Where the old halves
differ under a partial mask, the rule does not say which one: the model takes the union of the old poison and the smaller
old tag (log 73). -/
def Wave.setPair (w : Wave) (mask : LaneMask) (r : Nat) (lo hi : List Lane) (tag : Grade) (poison : LaneMask) :
    Wave :=
  let old := w.v r
  let old' := w.v (r + 1)
  let t := if mask = w.all then tag else Grade.min tag (Grade.min old.tag old'.tag)
  let p := (poison &&& mask) ||| ((old.poison ||| old'.poison) &&& ~~~mask)
  if mask = 0 then w else
  { w with vregs := setAt (setAt w.vregs r ⟨mergeLanes w.width mask lo old.lanes, t, p⟩)
                      (r + 1) ⟨mergeLanes w.width mask hi old'.lanes, t, p⟩ }

/-- The execution grade EG of a wave: GST[1:0] (R46). -/
def Wave.eg (w : Wave) : Grade := w.gst.extractLsb' 0 2

/-- A result written to a scalar register with the execution grade as its tag (R264). -/
def Wave.setE (w : Wave) (r : SReg) (v : Word) : Wave := w.setS r v w.eg

/-- DIL set and DILCNT advanced once, saturating (R265). -/
def Wave.dilute (w : Wave) : Wave :=
  { w with gst := setBits (setBits w.gst 2 2 1) 31 16 (min 65535 (bits w.gst 31 16 + 1)) }

/-- DISAGREE advanced by n, saturating (R271). -/
def Wave.disagree (w : Wave) (n : Nat) : Wave :=
  { w with gst := setBits w.gst 47 32 (min 65535 (bits w.gst 47 32 + n)) }

/-- AFLG flags set: bits [5:0] are NV, DZ, OF, UF, NX, SAT (R46, R61). -/
def Wave.raiseFlags (w : Wave) (fl : BitVec 6) : Wave := { w with aflg := w.aflg ||| fl.zeroExtend 14 }

/-! ### The register budget and pending registers (R95, R292) -/

/-- A scalar register is allocated (R95). -/
def Wave.hasS (w : Wave) (r : Nat) : Bool := decide (r < w.ns) || r == 63 || r == 0

/-- A vector register is allocated (R95). -/
def Wave.hasV (w : Wave) (r : Nat) : Bool := decide (r < w.nv)

/-- Every named register is allocated. -/
def Wave.budget (w : Wave) (ss vs : List Nat) : Bool := ss.all w.hasS && vs.all w.hasV

/-- A completion register among those named is pending (R292). -/
def Wave.pendingAny (w : Wave) (ss : List Nat) : Bool := ss.any (fun r => w.pendRegs.any (fun p => p.1 == r))

/-! ### Routes -/

/-- A fragment parked at a team barrier, a CARVE among them (R164, R167). -/
def atBarrier : Park → Bool
  | .bar | .carve _ _ => true
  | _ => false

/-- The urgent wave of a team: the fewest instructions since the last barrier among those that have not arrived
(R164); the lower index wins a tie. -/
def State.urgent (s : State) (t : Team) : Option Nat :=
  let open' := t.waves.filter fun i =>
    match TabOps.find? s.waves i with
    | some w => w.life == .running && w.live.any (fun f => !atBarrier f.2.park)
    | none => false
  open'.foldl (fun best i =>
    match best with
    | none => some i
    | some j =>
      match TabOps.find? s.waves i, TabOps.find? s.waves j with
      | some a, some b => if a.issued < b.issued then some i else some j
      | _, _ => some j) none

/-- A replay runs, of a grid or of an operation: the module is in deterministic mode (R404). -/
def State.replaying (s : State) : Bool :=
  s.grids.any (fun g => g.2.replay.isSome && g.2.life != .retired) || !s.retrace.status.isEmpty

/-- The log entries of a grid changed; the first argument is the grid's number in the entry (R403). -/
def State.logGrid (s : State) (gid : Nat) (h : Nat → LogEntry → LogEntry) : State :=
  { s with retrace := { s.retrace with
      log := s.retrace.log.map (fun e =>
        match e.grids.findIdx? (· == gid) with
        | some i => h i e
        | none => e) } }

/-- The replay that a grid belongs to (R404). -/
def Grid.shadow (g : Grid) : Option Nat := g.replay.map Prod.fst

/-- The path of a wave's accesses. -/
def State.routeOf (s : State) (wid : Nat) (w : Wave) (t : Team) (g : Grid) : Route :=
  { wave := wid, at' := w.at', die := w.die, core := w.core, vd := g.vd, team := w.team, fused := s.fusedCores g w.nb,
    prot := !s.replaying && s.urgent t == some wid, shadow := g.shadow }

/-- The path of the executing wave's accesses. -/
def Ctx.route (c : Ctx) (s : State) : Route := s.routeOf c.wid c.w c.t c.g

/-! ### Causes (R341) -/

namespace Cause

def illop : Word := 1
def latch : Word := 2
def budget : Word := 4
def xlate : Word := 8
def perm : Word := 16
def align : Word := 32
def sprange : Word := 64
def recbad : Word := 128
def recrange : Word := 256
def grade : Word := 512
def integ : Word := 1024
def cxldown : Word := 2 ^ 11
def cxltimeout : Word := 2 ^ 12
def notproducer : Word := 2 ^ 13
def copybad : Word := 2 ^ 14
def bankbad : Word := 2 ^ 15
def mmabad : Word := 2 ^ 16
def batchbad : Word := 2 ^ 17
def cbbad : Word := 2 ^ 18
def evbad : Word := 2 ^ 19
def mbxbad : Word := 2 ^ 20
def barbad : Word := 2 ^ 21
def fragfull : Word := 2 ^ 22
def carvefail : Word := 2 ^ 23
def launchbad : Word := 2 ^ 24
def launchdepth : Word := 2 ^ 25
def trap : Word := 2 ^ 26
def brk : Word := 2 ^ 27
def collbad : Word := 2 ^ 28

/-- The bits of CAUSE that are fields (R341). -/
def fields : Word := 0x3F1FFFFFFF

/-- The cause of a failed translation or home. -/
def ofMem : MemFault → Word
  | .xlate => xlate
  | .perm => perm
  | .cxlDown => cxldown

end Cause

/-! ### Error records and the origin latch (R268, R269) -/

/-- An origin word (R268). -/
def originWord (owner kind grade line : Nat) : Word :=
  BitVec.ofNat 64 (owner % 256 * 2 ^ 56 + kind % 16 * 2 ^ 52 + grade % 4 * 2 ^ 50 + line % 2 ^ 45)

/-- The origin latch filled, if it is empty (R268). -/
def Wave.fillOrigin (w : Wave) (o : Word) : Wave := if w.origin.isSome then w else { w with origin := some o }

/-- A record of a wave in the ring of its grid's device (R269). -/
def State.waveRecord (s : State) (w : Wave) (g : Grid) (owner kind grade line : Nat) (pc : Word) : State :=
  s.errorRecord g.vd { owner := owner, kind := kind, grade := grade, eg := w.eg.toNat, die := w.die,
                       handle := w.handle.toNat, line := line * 128, pc := pc, cycle := s.cycleOf w }

/-- The record and the origin word of one bad line that a wave read: DETECT or TRANSIT (R266, R268, R269). -/
def State.noteLine (s : State) (wid : Nat) (g : Grid) (line : Nat) (kind : Nat) (leaf : Leaf) : State :=
  match TabOps.find? s.waves wid with
  | none => s
  | some w =>
    (s.waveRecord w g leaf.owner kind leaf.grade.toNat line 0).setWave wid
      (w.fillOrigin (originWord leaf.owner kind leaf.grade.toNat line))

/-- The records of the bad lines of an access. -/
def State.noteBad (s : State) (wid : Nat) (g : Grid) (bad : Bad) : State :=
  bad.foldl (fun s b => s.noteLine wid g b.1 (if b.2.1 = .transit then 2 else 1) b.2.2) s

/-- The records without the origin latch, for a read that poisons no lane. -/
def State.recordBad (s : State) (w : Wave) (g : Grid) (bad : Bad) : State :=
  bad.foldl (fun s b => s.waveRecord w g b.2.2.owner (if b.2.1 = .transit then 2 else 1) b.2.2.grade.toNat b.1 0) s

/-! ### Stopping a grid (R345) -/

/-- A wave ended: its fragments, events and latches go. Its registers are discarded in that nothing reads them any more; the
entries hold what R184 says that they hold when the waves have ended (R157; log 84). -/
def Wave.end' (w : Wave) : Wave :=
  { w.endChain with
    life := .ended
    frags := w.frags.map (fun _ => none)
    recs := w.recs.map (fun _ => none)
    evpend := 0
    binds := w.binds.map (fun _ => Binding.none)
    pendRegs := []
    doneRegs := []
    faults := [] }

/-- The grids that a stop reaches: a grid and all it launched, in the order of their numbers (a child's number is
higher than its parent's). -/
def State.stopSet (s : State) (gid : Nat) : List Nat :=
  s.grids.foldl (fun set c => if c.1 = gid || c.2.parent.any set.contains then c.1 :: set else set) []

/-- A grid stopped as StopGrid says: every wave of it and of its child grids ends, and its completion record will
carry the failing wave's cause (R345). -/
def State.stopGrid (s : State) (gid : Nat) (st : Nat) (cause tpc tinfo : Word) : State :=
  let set := s.stopSet gid
  { s with
    waves := TabOps.mapVals (fun _ w => if set.contains w.grid && w.life != .ended then w.end' else w) s.waves
    teams := TabOps.mapVals (fun _ t =>
      if set.contains t.grid && (t.life == .running || t.life == .held || t.life == .saved) then
        { t with life := .ended }
      else t) s.teams
    grids := TabOps.mapVals (fun i g =>
      if i = gid && g.life != .retired then
        { g with life := .stopping, state := st, cause := cause, tpc := tpc, tinfo := tinfo }
      else if set.contains i && g.life != .retired then { g with life := .stopping, state := 2 }
      else g) s.grids }

/-! ### Taking a trap and returning from it (R343, R344, R346) -/

/-- The trap information word: the origin latch for INTEG, else the word of the raising instruction (R343). -/
def Wave.infoWord (w : Wave) (causes tinfo : Word) : Word :=
  if bit causes 10 then w.origin.getD 0 else tinfo

/-- Delivery to the handler: TPC, TMASK, ILEN and TINFO are written and every latch is invalid, then the grid stops if the
fragment is in its handler already or there is no handler, else the fragment enters it, at an even address (R38, R82, R343,
R345; log 65). -/
def State.deliver (s : State) (wid fid ilen : Nat) (causes tinfo : Word) : State :=
  match TabOps.find? s.waves wid with
  | none => s
  | some w =>
    match w.frag? fid, TabOps.find? s.grids w.grid with
    | some f, some g =>
      let w := { w.endChain with
        tpc := f.pc
        tmask := f.mask
        ilen := BitVec.ofNat 4 ilen
        tinfo := w.infoWord causes tinfo }
      if w.inh.isSome || g.packet.tvec = 0 then
        (s.setWave wid w).stopGrid w.grid 2 w.cause w.tpc w.tinfo
      else s.setWave wid ({ w with inh := some fid }.setFrag fid (f.at' (g.packet.tvec &&& ~~~1)))
    | _, _ => s

/-- The rest of R343 after the resident kernel: a fragment waits while another one is in the handler (R344). -/
def State.deliverOrPark (s : State) (wid fid ilen : Nat) (causes tinfo : Word) : State :=
  match TabOps.find? s.waves wid with
  | none => s
  | some w =>
    match w.frag? fid with
    | none => s
    | some f =>
      if w.inh.any (· != fid) then
        s.setWave wid ((s.endChainFor wid fid w).setFrag fid
          { f with park := .trapWait causes tinfo, plen := ilen, since := s.cycleOf w, waited := [] })
      else s.deliver wid fid ilen causes tinfo

/-- Raise: the causes are set; a page fault and a debugger's break are offered to the resident kernel; else the
causes are delivered (R47, R48, R343, R349). `walked` says that XLATE or PERM comes from a translation. -/
def State.raiseAt (s : State) (wid fid ilen : Nat) (causes tinfo : Word) (walked : Bool) : State :=
  match TabOps.find? s.waves wid with
  | none => s
  | some w =>
    match w.frag? fid, TabOps.find? s.grids w.grid with
    | some f, some g =>
      let w := { w with cause := w.cause ||| causes }
      let s := s.setWave wid w
      if walked && (causes &&& (Cause.xlate ||| Cause.perm)) != 0 then
        s.setWave wid (w.setFrag fid { f with park := .pageFault causes tinfo, plen := ilen, since := s.cycleOf w, waited := [] })
      else if bit causes 27 && g.debugged then
        s.setWave wid ((s.endChainFor wid fid w).setFrag fid
          { f with park := .debugger tinfo, plen := ilen, since := s.cycleOf w })
      else s.deliverOrPark wid fid ilen causes tinfo
    | _, _ => s

/-- The executing instruction raises causes, none of them from a translation. -/
def Ctx.raise (c : Ctx) (s : State) (causes tinfo : Word) : State := s.raiseAt c.wid c.fid c.ilen causes tinfo false

/-- What the translation leaves that fails at an address: its walk has read the tables (R204, R259). -/
def State.walkTrace (s : State) (at' vd : Nat) (causes va : Word) : State :=
  if causes &&& (Cause.xlate ||| Cause.perm) = 0 then s else s.keep at' vd va

/-- The executing instruction raises causes of its accesses. -/
def Ctx.raiseMem (c : Ctx) (s : State) (causes tinfo : Word) : State :=
  (s.walkTrace c.w.at' c.g.vd causes tinfo).raiseAt c.wid c.fid c.ilen causes tinfo true

/-- The executing instruction consumes a poisoned lane: a CONSUME record, and INTEG with what else it raises
(R267, R269). With an empty origin latch the record goes to the owner of the grid's queue (R268). -/
def Ctx.consume (c : Ctx) (s : State) (more tinfo : Word) (walked : Bool) : State :=
  let s := match c.w.origin with
    | some o => s.waveRecord c.w c.g (bits o 63 56) 3 (bits o 51 50) (bits o 44 0) c.f.pc
    | none => s.waveRecord c.w c.g c.g.owner.toNat 3 c.w.eg.toNat 0 c.f.pc
  s.raiseAt c.wid c.fid c.ilen (Cause.integ ||| more) tinfo walked

/-- The fragment parked by R344 for longest, the lower entry winning a tie. -/
def Wave.oldestTrap (w : Wave) : Option (Nat × Fragment) :=
  (w.live.filter (fun f => match f.2.park with | .trapWait _ _ => true | _ => false)).foldl (fun best f =>
    match best with
    | none => some f
    | some b => if f.2.older b.2 then some f else some b) none

/-- The oldest parked fragment delivered, if there is one (R344, R346). -/
def State.deliverOldest (s : State) (wid : Nat) : State :=
  match TabOps.find? s.waves wid with
  | none => s
  | some w =>
    match w.oldestTrap with
    | some (fid, f) =>
      match f.park with
      | .trapWait causes tinfo => s.deliver wid fid f.plen causes tinfo
      | _ => s
    | none => s

/-- Return from the handler (R346): PC and MASK come back, INH is cleared, and the next parked fragment enters. -/
def Ctx.trapReturn (c : Ctx) (s : State) : State :=
  if c.w.inh = some c.fid then
    let f := { c.f.at' (c.w.tpc &&& ~~~1) with mask := c.w.tmask &&& c.f.lanes }
    (s.setWave c.wid ({ c.w.endChain with inh := none }.setFrag c.fid f)).deliverOldest c.wid
  else c.raise s Cause.illop 0

/-! ### The common start of an instruction -/

/-- An instruction that reads a completion register for the first time after its status word was written acquires, at
system scope, the writes of the operation; one that only writes the register ends that (R243). -/
def Ctx.observe (c : Ctx) (s : State) (ws rs : List Nat) : Ctx × State :=
  if c.w.doneRegs.isEmpty then (c, s)
  else
    ({ c with w := { c.w with doneRegs := c.w.doneRegs.filter (fun r => !(ws ++ rs).contains r) } },
      let seen := rs.filter c.w.doneRegs.contains
      if seen.isEmpty then s else s.acquire (c.route s) 6 (seen.map (.reg c.wid)))

/-- The checks that follow decode for a scalar instruction that writes the registers `ws`, reads `rs` and names the vector
registers `vs`: BUDGET (R95), then a stall while a named register is pending (R292). -/
def Ctx.scalar (c : Ctx) (s : State) (ws rs vs : List Nat) (k : Ctx → State → State) : State :=
  if !c.w.budget (ws ++ rs) vs then c.raise s Cause.budget 0
  else if c.w.pendingAny (ws ++ rs) then c.stall s (.score (ws ++ rs))
  else k (c.observe s ws rs).1 (c.observe s ws rs).2

/-- The meaning of a scalar instruction that names registers. -/
def scalarOp (s : State) (ws rs vs : List Nat) (k : Ctx → State → State) : Out State :=
  withEnd s fun c => c.scalar s ws rs vs k

/-- The meaning of a command with a completion register, which another command may still have pending (R292), and a
descriptor's address. -/
def commandOp (s : State) (d a : SReg) (k : Ctx → State → State) : Out State :=
  withEnd s fun c =>
    if !c.w.budget [d.toNat, a.toNat] [] then c.raise s Cause.budget 0 else c.scalar s [] [a.toNat] [] k

end Sys2Proof.Machine
end

