-- ==== Sys2Proof/Machine/Flags.lean ====
section
/-! DEFINITION. Flags: FLG by a compare and its conditions (R89, R102), the sticky flags of AFLG (R46, R61), and
integer saturation (R51, R119). -/

namespace Sys2Proof.Machine

/-! ### FLG (R46): bit 3 N, bit 2 Z, bit 1 C, bit 0 V -/

/-- FLG as SCMP and SCMPI write it for a and y (R102). -/
def compareFlags (a y : Word) : BitVec 4 :=
  let t := a - y
  BitVec.ofBool t.msb ++ BitVec.ofBool (t == 0) ++ BitVec.ofBool (decide (y.toNat ≤ a.toNat))
    ++ BitVec.ofBool (a.msb != y.msb && t.msb != a.msb)

def flagN (f : BitVec 4) : Bool := f.getLsbD 3
def flagZ (f : BitVec 4) : Bool := f.getLsbD 2
def flagC (f : BitVec 4) : Bool := f.getLsbD 1
def flagV (f : BitVec 4) : Bool := f.getLsbD 0

/-- The condition of BC on FLG (R89); code 15 is refused at decode. -/
def condHolds (c f : BitVec 4) : Bool :=
  match c.toNat with
  | 0x0 => flagZ f
  | 0x1 => !flagZ f
  | 0x2 => flagN f != flagV f
  | 0x3 => flagN f == flagV f
  | 0x4 => flagZ f || flagN f != flagV f
  | 0x5 => !flagZ f && flagN f == flagV f
  | 0x6 => !flagC f
  | 0x7 => flagC f
  | 0x8 => !flagC f || flagZ f
  | 0x9 => flagC f && !flagZ f
  | 0xA => flagN f
  | 0xB => !flagN f
  | 0xC => flagV f
  | 0xD => !flagV f
  | 0xE => true
  | _ => false

/-! ### AFLG[5:0] (R46) -/

namespace Flag

def nv : BitVec 6 := 32
def dz : BitVec 6 := 16
def of : BitVec 6 := 8
def uf : BitVec 6 := 4
def nx : BitVec 6 := 2
def sat : BitVec 6 := 1

/-- A flag where a condition holds. -/
def when (b : Bool) (f : BitVec 6) : BitVec 6 := if b then f else 0

end Flag

/-! ### Integer results (R51, R119) -/

/-- A value clamped to bounds, with AFLG.SAT where clamping changes it (R51). -/
def clampInt (lo hi v : Int) : Int × BitVec 6 :=
  if hi < v then (hi, Flag.sat) else if v < lo then (lo, Flag.sat) else (v, 0)

/-- Fit: an exact integer into n bits under SAT, as a pattern below 2^n (R119). -/
def fitInt (n : Nat) (sat : BitVec 2) (v : Int) : Nat × BitVec 6 :=
  match sat.toNat with
  | 1 => let r := clampInt (-(2 ^ (n - 1))) (2 ^ (n - 1) - 1) v; ((r.1 % 2 ^ n).toNat, r.2)
  | 2 => let r := clampInt 0 (2 ^ n - 1) v; (r.1.toNat, r.2)
  | _ => ((v % 2 ^ n).toNat, 0)

/-- A pattern of n bits read as a signed integer (R49). -/
def signedOf (n p : Nat) : Int := if p % 2 ^ n < 2 ^ (n - 1) then (p % 2 ^ n : Nat) else (p % 2 ^ n : Nat) - 2 ^ n

end Sys2Proof.Machine
end

