-- ==== Sys2Proof/Machine/Fp.lean ====
section
/-! DEFINITION. Floating-point values as exact dyadic numbers, the formats of R52 to R54, RoundTo (R55, R56), SAT
(R58), sums and products (R59), comparisons (R60), and the conversions of one element (R131 to R133). -/

namespace Sys2Proof.Machine

/-- A floating-point value: a NaN, an infinity, or the exact number (-1)^neg * m * 2^e; m = 0 is a signed zero. -/
inductive Fp where
  | nan
  | inf (neg : Bool)
  | fin (neg : Bool) (m : Nat) (e : Int)
  deriving DecidableEq, Repr

/-- The floating formats (R52). -/
inductive Fmt where
  | f32 | bf16 | f16 | e5m2 | e4m3 | e2m1
  deriving DecidableEq, Repr

namespace Fmt

/-- Mantissa bits. -/
def mbits : Fmt → Nat
  | f32 => 23 | bf16 => 7 | f16 => 10 | e5m2 => 2 | e4m3 => 3 | e2m1 => 1

/-- Exponent bits. -/
def ebits : Fmt → Nat
  | f32 => 8 | bf16 => 8 | f16 => 5 | e5m2 => 5 | e4m3 => 4 | e2m1 => 2

def bias : Fmt → Nat
  | f32 => 127 | bf16 => 127 | f16 => 15 | e5m2 => 15 | e4m3 => 7 | e2m1 => 1

/-- The width in bits. -/
def width (f : Fmt) : Nat := 1 + f.ebits + f.mbits

/-- A format with infinities (R53). -/
def hasInf : Fmt → Bool
  | f32 | bf16 | f16 | e5m2 => true
  | e4m3 | e2m1 => false

/-- The pattern, without sign, of the largest finite value (R52). -/
def maxBits : Fmt → Nat
  | f32 => 0x7F7FFFFF | bf16 => 0x7F7F | f16 => 0x7BFF | e5m2 => 0x7B | e4m3 => 0x7E | e2m1 => 0x7

/-- The pattern of +infinity, where there is one. -/
def infBits (f : Fmt) : Nat := (2 ^ f.ebits - 1) * 2 ^ f.mbits

/-- The canonical NaN; e2m1 has none (R53). -/
def nanBits : Fmt → Nat
  | f32 => 0x7FC00000 | bf16 => 0x7FC0 | f16 => 0x7E00 | e5m2 => 0x7E | e4m3 => 0x7F | e2m1 => 0

/-- The exponent of the smallest normal number. -/
def emin (f : Fmt) : Int := 1 - (f.bias : Int)

/-- A sign in the top bit. -/
def signBit (f : Fmt) (neg : Bool) : Nat := if neg then 2 ^ (f.ebits + f.mbits) else 0

/-- The pattern of 1.0. -/
def oneBits (f : Fmt) : Nat := f.bias * 2 ^ f.mbits

end Fmt

/-- The value that a pattern denotes (R52 to R54). -/
def Fp.decode (f : Fmt) (p : Nat) : Fp :=
  let neg := p / 2 ^ (f.ebits + f.mbits) % 2 == 1
  let ex := p / 2 ^ f.mbits % 2 ^ f.ebits
  let m := p % 2 ^ f.mbits
  let top := ex == 2 ^ f.ebits - 1
  if f.hasInf && top then (if m = 0 then .inf neg else .nan)
  else if f = .e4m3 ∧ top ∧ m = 7 then .nan
  else if ex = 0 then .fin neg m (f.emin - f.mbits)
  else .fin neg (2 ^ f.mbits + m) ((ex : Int) - f.bias - f.mbits)

namespace Fp

/-- The value is a zero. -/
def isZero : Fp → Bool
  | fin _ m _ => m == 0
  | _ => false

def isNan : Fp → Bool
  | nan => true
  | _ => false

def isInf : Fp → Bool
  | inf _ => true
  | _ => false

/-- The sign of a value. -/
def neg : Fp → Bool
  | nan => false
  | inf n => n
  | fin n _ _ => n

/-- The sign inverted. -/
def flip : Fp → Fp
  | nan => nan
  | inf n => inf !n
  | fin n m e => fin (!n) m e

/-- The sign cleared. -/
def abs : Fp → Fp
  | nan => nan
  | inf _ => inf false
  | fin _ m e => fin false m e

/-- Multiplied by 2^k exactly (R58). -/
def scale (k : Int) : Fp → Fp
  | fin n m e => fin n m (e + k)
  | x => x

/-- The floor of the base-2 logarithm of a positive value. -/
def exp2 : Fp → Int
  | fin _ m e => e + Nat.log2 m
  | _ => 0

/-- A finite value as an integer multiple of 2^q, for q at or below its exponent. -/
def atExp (q : Int) : Fp → Int
  | fin n m e => (if n then -1 else 1) * (m * 2 ^ (e - q).toNat : Nat)
  | _ => 0

/-- The exponent of a finite value. -/
def expOf : Fp → Int
  | fin _ _ e => e
  | _ => 0

/-- The value v * 2^q; a zero gets the sign given. -/
def ofInt (zeroNeg : Bool) (v q : Int) : Fp := if v = 0 then fin zeroNeg 0 0 else fin (decide (v < 0)) v.natAbs q

/-- Strictly less, for values that are no NaN; zeros of both signs are equal (R60). -/
def lt : Fp → Fp → Bool
  | fin a m e, fin b n g => decide ((fin a m e).atExp (min e g) < (fin b n g).atExp (min e g))
  | inf true, inf true => false
  | inf true, _ => true
  | fin _ _ _, inf false => true
  | _, _ => false

/-- Equal as numbers, for values that are no NaN. -/
def same (x y : Fp) : Bool := !lt x y && !lt y x

end Fp

/-! ### Rounding (R55, R56) -/

/-- The rounding modes of R55. -/
inductive Rnd where
  | rne | rtz | rdn | rup | rna
  deriving DecidableEq, Repr

/-- The mode that the RND field selects; the default is RNE (R55). -/
def Rnd.of (r : BitVec 3) : Rnd :=
  match r.toNat with
  | 1 => .rtz | 2 => .rdn | 3 => .rup | 4 => .rna | _ => .rne

/-- Whether a magnitude with quotient q and remainder r of 2^s (s > 0, r > 0) rounds up. -/
def roundsUp (mode : Rnd) (neg : Bool) (q r : Nat) (s : Nat) : Bool :=
  match mode with
  | .rtz => false
  | .rdn => neg
  | .rup => !neg
  | .rna => decide (2 ^ s ≤ 2 * r)
  | .rne => decide (2 ^ s < 2 * r) || (decide (2 * r = 2 ^ s) && q % 2 == 1)

/-- A magnitude m * 2^e as an integer multiple of 2^q, rounded, with whether it is inexact. -/
def roundAt (mode : Rnd) (neg : Bool) (m : Nat) (e q : Int) : Nat × Bool :=
  if q ≤ e then (m * 2 ^ (e - q).toNat, false)
  else
    let s := (q - e).toNat
    let d := m / 2 ^ s
    let r := m % 2 ^ s
    if r = 0 then (d, false) else (if roundsUp mode neg d r s then d + 1 else d, true)

/-- A rounded value n * 2^q (n below or at 2^(mbits+1), q at or above the format's least) as a pattern without
sign. -/
def Fmt.encode (f : Fmt) (n : Nat) (q : Int) : Nat :=
  if n < 2 ^ f.mbits then n
  else if n < 2 ^ (f.mbits + 1) then ((q + f.mbits + f.bias).toNat) * 2 ^ f.mbits + (n - 2 ^ f.mbits)
  else ((q + 1 + f.mbits + f.bias).toNat) * 2 ^ f.mbits + (n / 2 - 2 ^ f.mbits)

/-- The overflow result of a format under a mode, without sign (R56). -/
def Fmt.overflow (f : Fmt) (mode : Rnd) (neg : Bool) : Nat :=
  if !f.hasInf then f.maxBits
  else match mode with
    | .rne | .rna => f.infBits
    | .rtz => f.maxBits
    | .rdn => if neg then f.infBits else f.maxBits
    | .rup => if neg then f.maxBits else f.infBits

/-- RoundTo: an exact value into a format, as a pattern with its flags (R56). -/
def roundTo (f : Fmt) (mode : Rnd) : Fp → Nat × BitVec 6
  | .nan => if f = .e2m1 then (0, Flag.nv) else (f.nanBits, 0)
  | .inf n => if f.hasInf then (f.signBit n + f.infBits, 0) else (f.signBit n + f.maxBits, Flag.nv)
  | .fin n m e =>
    if m = 0 then (f.signBit n, 0)
    else
      let q := max (e + Nat.log2 m) f.emin - f.mbits
      let r := roundAt mode n m e q
      let b := f.encode r.1 q
      if f.maxBits < b then (f.signBit n + f.overflow mode n, Flag.of ||| Flag.nx)
      else
        (f.signBit n + b,
         Flag.when r.2 Flag.nx ||| Flag.when (r.2 && decide (0 < b) && decide (b < 2 ^ f.mbits)) Flag.uf)

/-- SAT on a rounded result (R58). -/
def satFp (f : Fmt) (sat : BitVec 2) (p : Nat) : Nat × BitVec 6 :=
  let x := Fp.decode f p
  let y :=
    match sat.toNat with
    | 1 => if x.isInf then f.signBit x.neg + f.maxBits else p
    | 2 => if x.isNan then p else if x.neg then 0 else if x.isInf then f.maxBits else p
    | 3 => if x.isNan || x.neg then 0 else if Fp.lt (.fin false 1 0) x then f.oneBits else p
    | _ => p
  (y, Flag.when (y != p) Flag.sat)

/-- The SCALE field as an integer (R23). -/
def scaleOf (s : BitVec 5) : Int := s.toInt

/-- SCALE, one RoundTo, SAT (R58): the pattern and the flags. -/
def finishFp (f : Fmt) (mode : Rnd) (k : Int) (sat : BitVec 2) (x : Fp) : Nat × BitVec 6 :=
  let r := roundTo f mode (x.scale k)
  let t := satFp f sat r.1
  (t.1, r.2 ||| t.2)

/-! ### Exact arithmetic (R56, R59) -/

/-- The exact product, and NV for 0 times infinity. -/
def mulFp : Fp → Fp → Fp × BitVec 6
  | .nan, _ => (.nan, 0)
  | _, .nan => (.nan, 0)
  | .inf a, .inf b => (.inf (a != b), 0)
  | .inf a, .fin b m _ => if m = 0 then (.nan, Flag.nv) else (.inf (a != b), 0)
  | .fin a m _, .inf b => if m = 0 then (.nan, Flag.nv) else (.inf (a != b), 0)
  | .fin a m e, .fin b n g => if m = 0 ∨ n = 0 then (.fin (a != b) 0 0, 0) else (.fin (a != b) (m * n) (e + g), 0)

/-- The exact sum of the finite values of a list as an integer multiple of 2^q. -/
def sumAt (q : Int) : List Fp → Int
  | [] => 0
  | x :: xs => x.atExp q + sumAt q xs

/-- The least exponent of the nonzero finite values of a list. -/
def minExp : List Fp → Int
  | [] => 0
  | [x] => x.expOf
  | x :: xs => min x.expOf (minExp xs)

/-- The exact sum of several terms: infinities of both signs give NaN with NV; a zero sum is +0, or -0 under RDN,
or the common zero when every term is a zero of one sign (R56, R59, R128). -/
def sumFp (mode : Rnd) (ts : List Fp) : Fp × BitVec 6 :=
  let pos := ts.any (fun t => t == .inf false)
  let neg := ts.any (fun t => t == .inf true)
  if pos && neg then (.nan, Flag.nv)
  else if ts.any Fp.isNan then (.nan, 0)
  else if pos then (.inf false, 0)
  else if neg then (.inf true, 0)
  else if ts.all (fun t => t.isZero && !t.neg) then (.fin false 0 0, 0)
  else if ts.all (fun t => t.isZero && t.neg) then (.fin true 0 0, 0)
  else
    let q := minExp ts
    (Fp.ofInt (mode == .rdn) (sumAt q ts) q, 0)

/-- Operand modifiers: ABS, then NEG (R58). -/
def modFp (abs neg : Bool) (x : Fp) : Fp :=
  let y := if abs then x.abs else x
  if neg then y.flip else y

/-! ### Comparisons, minimum and maximum (R60) -/

/-- The conditions of VFCMP (R125). -/
def condFp (c : BitVec 3) (x y : Fp) : Bool :=
  if x.isNan || y.isNan then c == 1 || c == 6
  else match c.toNat with
    | 0 => Fp.same x y
    | 1 => !Fp.same x y
    | 2 => Fp.lt x y
    | 3 => !Fp.lt y x
    | 4 => Fp.lt y x
    | 5 => !Fp.lt x y
    | 6 => false
    | _ => true

/-- Less in the order of minimum and maximum, where -0 lies below +0 (R60). -/
def ltMin (x y : Fp) : Bool := Fp.lt x y || (Fp.same x y && x.neg && !y.neg)

/-- The smaller operand; of one NaN and a number the number (R60). -/
def minFp (x y : Fp) : Fp :=
  if x.isNan then y else if y.isNan then x else if ltMin y x then y else x

/-- The larger operand (R60). -/
def maxFp (x y : Fp) : Fp :=
  if x.isNan then y else if y.isNan then x else if ltMin x y then y else x

/-! ### Square root, floor, reduction -/

/-- The integer square root, by bits from the top. -/
def isqrtFrom (n : Nat) : Nat → Nat → Nat
  | 0, r => r
  | b + 1, r => if (r + 2 ^ b) * (r + 2 ^ b) ≤ n then isqrtFrom n b (r + 2 ^ b) else isqrtFrom n b r

/-- The largest r with r * r at most n. -/
def isqrt (n : Nat) : Nat := isqrtFrom n (Nat.log2 n / 2 + 1) 0

/-- The square root of a value as a value that rounds as the exact root does: 40 or more bits and a sticky bit.
A negative operand gives NaN with NV (R59). -/
def sqrtFp : Fp → Fp × BitVec 6
  | .nan => (.nan, 0)
  | .inf false => (.inf false, 0)
  | .inf true => (.nan, Flag.nv)
  | .fin n m e =>
    if m = 0 then (.fin n 0 0, 0)
    else if n then (.nan, Flag.nv)
    else
      let sh := if e % 2 = 0 then (80 : Nat) else 81
      let big : Nat := m * 2 ^ sh
      let r := isqrt big
      (.fin false (2 * r + (if r * r = big then 0 else 1)) ((e - (sh : Int)) / 2 - 1), 0)

/-- The floor of a finite value. -/
def floorInt (x : Fp) : Int := x.atExp (min x.expOf 0) / 2 ^ (0 - min x.expOf 0).toNat

/-- VFLOOR (R126). -/
def floorFp : Fp → Fp
  | .fin n m e => if m = 0 then .fin n 0 0 else Fp.ofInt false (floorInt (.fin n m e)) 0
  | x => x

/-- VFRACT: x minus its floor, exactly; an infinity gives NaN with NV, a zero result is +0 (R126). -/
def fractFp : Fp → Fp × BitVec 6
  | .nan => (.nan, 0)
  | .inf _ => (.nan, Flag.nv)
  | .fin n m e =>
    let q : Int := min e 0
    (Fp.ofInt false ((Fp.fin n m e).atExp q - floorInt (.fin n m e) * 2 ^ (0 - q).toNat) q, 0)

/-- VRRT: x minus the floor of x + 0.5, exactly; a zero result is +0 but for -0, an infinity gives NaN with NV
(R69). -/
def reduceFp : Fp → Fp × BitVec 6
  | .nan => (.nan, 0)
  | .inf _ => (.nan, Flag.nv)
  | .fin n m e =>
    if m = 0 then (.fin n 0 0, 0)
    else
      let q := min e (-1)
      let x := (Fp.fin n m e).atExp q
      let one : Int := 2 ^ (0 - q).toNat
      (Fp.ofInt false (x - (x + one / 2) / one * one) q, 0)

/-! ### Conversions of one element (R130 to R133) -/

/-- A number format of VCVT (R130). -/
inductive Num where
  | flt (f : Fmt)
  | int (signed : Bool) (n : Nat)
  deriving DecidableEq, Repr

/-- The format of a code; 14 and 15 are refused at decode (R93). -/
def Num.of (c : BitVec 4) : Num :=
  match c.toNat with
  | 0 => .flt .f32 | 1 => .flt .bf16 | 2 => .flt .f16 | 3 => .flt .e5m2 | 4 => .flt .e4m3 | 5 => .flt .e2m1
  | 6 => .int true 32 | 7 => .int false 32 | 8 => .int true 16 | 9 => .int false 16
  | 10 => .int true 8 | 11 => .int false 8 | 12 => .int true 64 | _ => .int false 64

/-- The width of a format in bits. -/
def Num.width : Num → Nat
  | .flt f => f.width
  | .int _ n => n

/-- The elements that a lane holds (R50, R130). -/
def Num.perLane (c : Num) : Nat := if 32 ≤ c.width then 1 else 32 / c.width

/-- The value of an element; an integer is exact (R133). -/
def Num.value (c : Num) (p : Nat) : Fp :=
  match c with
  | .flt f => Fp.decode f p
  | .int true n => Fp.ofInt false (signedOf n p) 0
  | .int false n => Fp.ofInt false (p % 2 ^ n : Nat) 0

/-- The bounds of an integer format. -/
def intBounds (signed : Bool) (n : Nat) : Int × Int :=
  if signed then (-(2 ^ (n - 1)), 2 ^ (n - 1) - 1) else (0, 2 ^ n - 1)

/-- RoundInt: an exact finite value to an integer under a mode, with whether it is inexact (R130). -/
def roundInt (mode : Rnd) : Fp → Int × Bool
  | .fin n m e =>
    let r := roundAt mode n m e 0
    ((if n then -(r.1 : Int) else r.1), r.2)
  | _ => (0, false)

/-- A floating value into an integer format (R132). -/
def fpToInt (mode : Rnd) (sat : BitVec 2) (signed : Bool) (n : Nat) (x : Fp) : Nat × BitVec 6 :=
  let b := intBounds signed n
  let clip := if sat = 0 then Flag.nv else Flag.sat
  let pat : Int → Nat := fun v => (v % 2 ^ n).toNat
  match x with
  | .nan => (0, Flag.nv)
  | .inf true => (pat b.1, clip)
  | .inf false => (pat b.2, clip)
  | x =>
    let r := roundInt mode x
    if b.2 < r.1 then (pat b.2, clip)
    else if r.1 < b.1 then (pat b.1, clip)
    else (pat r.1, Flag.when r.2 Flag.nx)

/-- An integer value into an integer format: wraps, or clamps under SAT (R133). -/
def intToInt (mode : Rnd) (sat : BitVec 2) (signed : Bool) (n : Nat) (x : Fp) : Nat × BitVec 6 :=
  let r := roundInt mode x
  let nx := Flag.when r.2 Flag.nx
  if sat = 0 then ((r.1 % 2 ^ n).toNat, nx)
  else
    let c := clampInt (intBounds signed n).1 (intBounds signed n).2 r.1
    ((c.1 % 2 ^ n).toNat, nx ||| c.2)

/-- One element converted from format `src` to `dst` (R131 to R133): `x` is the source value, after its scale. -/
def convertValue (dst src : Num) (mode : Rnd) (k : Int) (sat : BitVec 2) (x : Fp) : Nat × BitVec 6 :=
  match dst, src with
  | .flt f, _ => finishFp f mode k sat x
  | .int sg n, .flt _ => fpToInt mode sat sg n (x.scale k)
  | .int sg n, .int _ _ => intToInt mode sat sg n (x.scale k)

/-- One element converted (R130). -/
def convert (dst src : Num) (mode : Rnd) (k : Int) (sat : BitVec 2) (p : Nat) : Nat × BitVec 6 :=
  convertValue dst src mode k sat (src.value p)

end Sys2Proof.Machine
end

