-- ==== Sys2Proof/WellFormed.lean ====
section
/-! DEFINITION. Which instructions are well formed: the field, register, source and second-word checks of
decode, in the order of R94. An ill-formed instruction raises ILLOP. -/

namespace Sys2Proof

/-- The check that an instruction fails (R94). -/
inductive IllFormed where
  /-- A field or sub-code outside the listed values (R87 to R93). -/
  | field
  /-- A register that must be even, or a multiple of 4, is not (R77, R80, R87, R93). -/
  | parity
  /-- A reserved source code, or a constant or latch where none may stand (R76, R77, R93, R313). -/
  | source
  /-- A field of the second word that the major does not accept (R78, R80, R214). -/
  | second
  deriving DecidableEq, Repr

/-- Which fields of a modifier word a major accepts (R78). -/
inductive ModClass where
  | int | cmp | float | cvt | slide | red
  deriving DecidableEq, Repr

/-- What the destination field of a vector instruction names. -/
inductive VDst where
  | none
  | v32 (d : VReg)
  | v64 (d : VReg)
  | spair (q : BitVec 4)
  deriving DecidableEq, Repr

/-- The operand fields of a vector instruction outside the memory majors: modifier word and its class, K, the
32-bit sources, the 64-bit source, whether it has a third source, and the destination. -/
structure VecForm where
  m     : Option ModWord
  cls   : ModClass
  k     : Bool
  src   : List Src
  src64 : Option Src
  third : Bool
  dst   : VDst
  deriving DecidableEq, Repr

/-- An arithmetic form with a 32-bit destination. -/
def VecForm.arith (cls : ModClass) (m : Option ModWord) (k : Bool) (d : VReg) (src : List Src)
    (third : Bool) : VecForm :=
  { m := m, cls := cls, k := k, src := src, src64 := .none, third := third, dst := .v32 d }

/-- A compare into the scalar pair q (R121). -/
def VecForm.compare (m : Option ModWord) (q : BitVec 4) (a b : Src) : VecForm :=
  { m := m, cls := .cmp, k := false, src := [a, b], src64 := .none, third := false, dst := .spair q }

/-- A form without a modifier word (R78: none). -/
def VecForm.bare (k : Bool) (src : List Src) (dst : VDst) : VecForm :=
  { m := .none, cls := .red, k := k, src := src, src64 := .none, third := false, dst := dst }

/-- A format code of VCVT that is 64 bits wide (R130). -/
def cvtWide (c : BitVec 4) : Bool := decide (12 ≤ c.toNat)

/-- The form of VCVT (R130). -/
def VecForm.convert (m : Option ModWord) (k : Bool) (d : VReg) (a : Src) (e s : BitVec 4) : VecForm :=
  { m := m, cls := .cvt, k := k, src := if cvtWide s then [] else [a],
    src64 := if cvtWide s then some a else .none, third := false,
    dst := if cvtWide e then .v64 d else .v32 d }

/-- The operand form of a vector instruction outside the memory majors and MWR. -/
def Instr.vec? : Instr → Option VecForm
  | .vadd m k d a b | .vsub m k d a b | .vmul m k d a b | .vmulhI32 m k d a b | .vmulhZ32 m k d a b
  | .vminI32 m k d a b | .vminZ32 m k d a b | .vmaxI32 m k d a b | .vmaxZ32 m k d a b
  | .vand m k d a b | .vor m k d a b | .vxor m k d a b | .vshl m k d a b | .vshr m k d a b
  | .vsra m k d a b | .vshrr m k d a b | .vadd2I16 m k d a b | .vsub2I16 m k d a b =>
    some (.arith .int m k d [a, b] false)
  | .vmad m k d a b | .vsel m k d a b | .vmac2I16 m k d a b => some (.arith .int m k d [a, b] true)
  | .vaddVi m k d a _ | .vandVi m k d a _ | .vorVi m k d a _ | .vxorVi m k d a _
  | .vshlVi m k d a _ | .vshrVi m k d a _ | .vsraVi m k d a _ | .vshrrVi m k d a _ =>
    some (.arith .int m k d [a] false)
  | .vcmpI32 m _ q a b | .vcmpZ32 m _ q a b | .vfcmp m _ q a b => some (.compare m q a b)
  | .vfadd m k d a b | .vfsub m k d a b | .vfmul m k d a b | .vfmin m k d a b | .vfmax m k d a b
  | .vhadd2Bf16 m k d a b | .vhadd2F16 m k d a b | .vhmul2Bf16 m k d a b | .vhmul2F16 m k d a b =>
    some (.arith .float m k d [a, b] false)
  | .vfma m k d a b | .vhfma2Bf16 m k d a b | .vhfma2F16 m k d a b | .vdot2Bf16 m k d a b
  | .vdot2F16 m k d a b => some (.arith .float m k d [a, b] true)
  | .vrcp m k d a | .vrsq m k d a | .vsqrt m k d a | .vfract m k d a | .vfloor m k d a | .vrrt m k d a
  | .vsint m k d a | .vcost m k d a | .vexp2 m k d a | .vlog2 m k d a =>
    some (.arith .float m k d [a] false)
  | .vcvt m k d a e s => some (.convert m k d a e s)
  | .vslideUp m k d a _ _ | .vslideDn m k d a _ _ => some (.arith .slide m k d [a] false)
  | .vswapp k d a => some (.bare k [a] (.v32 d))
  | .vperm k d a b | .vbcast k d a b => some (.bare k [a, b] (.v32 d))
  | .vred m k d a _ _ => some (.arith .red m k d [a] false)
  | .mrd k d a _ => some (.bare k [a] (.v32 d))
  | .grtag k d a _ | .grdil k d a _ => some (.bare k [a] (.v32 d))
  | .grchk a => some (.bare false [a] .none)
  | .grlim _ => some (.bare false [] .none)
  | _ => none

/-- A vector memory instruction: its memory word, data register and base or offset code. -/
def Instr.mem? : Instr → Option (Option MemWord × VReg × Src)
  | .vldf m d a | .vstf m d a | .vld m d a _ | .vst m d a _ | .vlds m d a _ | .vsts m d a _
  | .vatom m d a _ => some (m, d, a)
  | _ => none

/-! ### Codes -/

/-- A source code that R76 does not reserve. -/
def srcOk (c : Src) : Bool := decide (c.toNat < 224) || decide (248 ≤ c.toNat ∧ c.toNat ≠ 250 ∧ c.toNat ≠ 251)

/-- A code that reads a latch (R76). -/
def srcLatch (c : Src) : Bool := decide (252 ≤ c.toNat)

/-- A legal code of a 64-bit operand (R77). -/
def srcOk64 (c : Src) : Bool := decide (c.toNat < 216) || decide (c.toNat = 248 ∨ c.toNat = 249)

/-- An odd V register as a 64-bit operand (R77). -/
def srcOdd64 (c : Src) : Bool := decide (c.toNat < 128) && decide (c.toNat % 2 = 1)

/-- A special register that SRD may read (R111, R342). -/
def specialReg (n : BitVec 12) : Bool :=
  decide (n.toNat ≤ 0x00C) || decide (0x010 ≤ n.toNat ∧ n.toNat ≤ 0x01F)
    || decide (0x020 ≤ n.toNat ∧ n.toNat ≤ 0x02B) || decide (n.toNat = 0x030)

/-- A special register that SWR may write (R111). -/
def specialWritable (n : BitVec 12) : Bool := decide (n.toNat ≤ 0x006) || decide (n.toNat = 0x030)

/-- A memory type of 64 bits (R80). -/
def memWide (t : BitVec 4) : Bool := t == 7 || t == 8 || t == 12

/-- The memory word, or the all-zero one that M = 0 stands for (R80). -/
def MemWord.get (m : Option MemWord) : MemWord :=
  m.getD { disp := 0, scope := 0, ord := 0, hint := 0, ty := 0, atop := 0 }

/-- The modifier word, or the all-zero one (R78). -/
def ModWord.get (m : Option ModWord) : ModWord :=
  m.getD { sat := 0, nega := false, negb := false, absa := false, absb := false, scale := 0, rnd := 0, srcc := 0 }

/-! ### The checks of R94, steps 3 to 6 -/

/-- Sub-codes and fields with unlisted values (R87 to R93). -/
def Instr.fieldsOk : Instr → Bool
  | .bc c _ => c != 15
  | .satom _ _ _ o s | .satomAcq _ _ _ o s | .satomRel _ _ _ o s | .satomAcqrel _ _ _ o s =>
    decide (o.toNat ≤ 9) && s != 7
  | .racq _ s => s == 5 || s == 6
  | .srd _ n => specialReg n
  | .swr _ n => specialWritable n
  | .vcmpI32 _ c _ _ _ | .vcmpZ32 _ c _ _ _ => decide (c.toNat ≤ 5)
  | .vcvt _ k _ _ e s => decide (e.toNat ≤ 13) && decide (s.toNat ≤ 13) && e != s && !(k && cvtWide e)
  | .vred _ _ _ _ o f => decide (o.toNat ≤ 2) && (f == 0 || f == 6 || f == 7)
  | _ => true

/-- Registers that must be even, or a multiple of 4 (R77, R80, R87, R93). -/
def Instr.parityOk : Instr → Bool
  | .calli _ v => v.toNat % 2 == 0
  | .mma f _ _ | .mmaP f _ _ => f.toNat % 2 == 0
  | .vcvt _ _ d a e s => !(cvtWide e && d.toNat % 2 == 1) && !(cvtWide s && srcOdd64 a)
  | .vldf m d a | .vstf m d a => !(memWide (MemWord.get m).ty && d.toNat % 2 == 1) && !srcOdd64 a
  | .vld m d _ _ | .vst m d _ _ | .vlds m d _ _ | .vsts m d _ _ =>
    !(memWide (MemWord.get m).ty && d.toNat % 2 == 1)
  | .vatom m d _ _ =>
    if (MemWord.get m).atop == 7 then
      if memWide (MemWord.get m).ty then d.toNat % 4 == 0 else d.toNat % 2 == 0
    else !(memWide (MemWord.get m).ty && d.toNat % 2 == 1)
  | _ => true

/-- Codes that select the part of a tile half: an S register or an integer 0 to 15 (R313). -/
def srcPart (c : Src) : Bool := decide (128 ≤ c.toNat ∧ c.toNat ≤ 207)

/-- The source codes (R76, R77, R93, R313). -/
def Instr.sourcesOk (i : Instr) : Bool :=
  match i with
  | .mrd _ _ a _ | .mwr _ a _ => srcPart a
  | .vldf _ _ a | .vstf _ _ a | .vld _ _ a _ | .vst _ _ a _ | .vlds _ _ a _ | .vsts _ _ a _
  | .vatom _ _ a _ => decide (a.toNat ≤ 191)
  | i => match i.vec? with
    | some f => f.src.all srcOk && f.src64.all srcOk64
    | none => true

/-- A modifier word sets only fields that its class accepts, and no reserved RND or SRCC (R55, R78). -/
def ModWord.ok (w : ModWord) : ModClass → Bool
  | .int => w.sat != 3 && !w.absa && !w.absb && w.scale == 0 && w.rnd == 0 && srcOk w.srcc
  | .cmp => w.sat == 0 && w.scale == 0 && w.rnd == 0 && w.srcc == 0
  | .float => decide (w.rnd.toNat ≤ 4) && srcOk w.srcc
  | .cvt => !w.nega && !w.negb && !w.absa && !w.absb && decide (w.rnd.toNat ≤ 4) && w.srcc == 0
  | .slide => w.sat == 0 && !w.nega && !w.negb && !w.absa && !w.absb && w.scale == 0 && w.rnd == 0
      && srcOk w.srcc
  | .red => w.sat == 0 && !w.nega && !w.negb && !w.absa && !w.absb && w.scale == 0
      && decide (w.rnd.toNat ≤ 4) && w.srcc == 0

/-- The parts of the memory word that all memory majors share (R80). -/
def MemWord.okBase (w : MemWord) : Bool := w.scope != 7 && w.hint != 3 && decide (w.ty.toNat ≤ 12)

/-- The second word (R78, R80, R214). -/
def Instr.secondOk (i : Instr) : Bool :=
  match i with
  | .vldf (some w) _ _ | .vld (some w) _ _ _ => w.okBase && decide (w.ord.toNat ≤ 1) && w.atop == 0
  | .vlds (some w) _ _ _ => w.okBase && decide (w.ord.toNat ≤ 1) && w.atop == 0 && w.hint == 0
  | .vstf (some w) _ _ | .vst (some w) _ _ _ => w.okBase && (w.ord == 0 || w.ord == 2) && w.atop == 0
  | .vsts (some w) _ _ _ => w.okBase && (w.ord == 0 || w.ord == 2) && w.atop == 0 && w.hint == 0
  | .vatom (some w) _ _ _ => w.scope != 7 && w.hint == 0 && decide (w.atop.toNat ≤ 7)
      && (w.ty == 0 || decide (5 ≤ w.ty.toNat ∧ w.ty.toNat ≤ 8))
  | .vcvt (some w) _ _ _ e _ => w.ok .cvt && !(w.sat == 3 && decide (6 ≤ e.toNat))
  | i => match i.vec? with
    | some f => match f.m with
      | some w => w.ok f.cls
      | none => true
    | none => true

/-- The first check that an instruction fails, in the order of R94; none if it is well formed. -/
def Instr.check (i : Instr) : Option IllFormed :=
  if !i.fieldsOk then some .field
  else if !i.parityOk then some .parity
  else if !i.sourcesOk then some .source
  else if !i.secondOk then some .second
  else none

/-- The instruction passes every check of decode. -/
def Instr.wf (i : Instr) : Bool := i.check.isNone

end Sys2Proof
end

