-- ==== Sys2Proof/Machine/Operands.lean ====
section
/-! DEFINITION. Operands of vector instructions: source codes (R76, R77), modifiers, the checks before execution,
latches and chains (R40 to R42), repetition with injected faults (R83, R270, R271, R274), and the writes of a result
(R39, R116). -/

namespace Sys2Proof.Machine

/-! ### Sources -/

/-- One value in every lane. -/
def splat (w : Wave) (x : Lane) (t : Grade) : VRegV := ⟨List.replicate w.width x, t, 0⟩

/-- The FP32 pattern of the inline constants 216 to 223 (R76). -/
def fpConst (n : Nat) : Lane :=
  match n with
  | 216 => 0x3F000000 | 217 => 0xBF000000 | 218 => 0x3F800000 | 219 => 0xBF800000
  | 220 => 0x40000000 | 221 => 0xC0000000 | 222 => 0x40800000 | _ => 0xC0800000

/-- The lane values, tag and poison of a source code; constants, LANE and WAVE count as EG (R76, R116). -/
def Wave.source (w : Wave) (latches : List VRegV) (c : Src) : VRegV :=
  let n := c.toNat
  if n < 128 then w.v n
  else if n < 192 then
    let r : SReg := BitVec.ofNat 6 (n - 128)
    splat w ((w.s r).extractLsb' 0 32) (w.stag r)
  else if n < 208 then splat w (BitVec.ofNat 32 (n - 192)) w.eg
  else if n < 216 then splat w (BitVec.ofInt 32 ((n : Int) - 216)) w.eg
  else if n < 224 then splat w (fpConst n) w.eg
  else if n = 248 then ⟨(List.range w.width).map (BitVec.ofNat 32), w.eg, 0⟩
  else if n = 249 then splat w (BitVec.ofNat 32 w.idx) w.eg
  else latches.getD (n - 252) ⟨[], 0, 0⟩

/-- A 64-bit source: low and high halves (R77). -/
def Wave.source64 (w : Wave) (c : Src) : VRegV × VRegV :=
  let n := c.toNat
  if n < 128 then (w.v n, w.v (n + 1))
  else if n < 192 then
    let r : SReg := BitVec.ofNat 6 (n - 128)
    (splat w ((w.s r).extractLsb' 0 32) (w.stag r), splat w ((w.s r).extractLsb' 32 32) (w.stag r))
  else if n < 216 then
    let x := w.source [] c
    (x, ⟨x.lanes.map (fun l => if l.msb then BitVec.allOnes 32 else 0), x.tag, 0⟩)
  else (w.source [] c, splat w 0 w.eg)

/-- A lane of a 64-bit value. -/
def lane64 (x : VRegV × VRegV) (l : Nat) : Word := x.2.lane l ++ x.1.lane l

/-! ### The registers and latches that a vector instruction names -/

/-- The scalar register that a source code names. -/
def srcS (c : Src) : List Nat := if 128 ≤ c.toNat ∧ c.toNat < 192 then [c.toNat - 128] else []

/-- The vector register that a source code names. -/
def srcV (c : Src) : List Nat := if c.toNat < 128 then [c.toNat] else []

/-- The latch that a source code names. -/
def srcB (c : Src) : List Nat := if 252 ≤ c.toNat then [c.toNat - 252] else []

end Sys2Proof.Machine

namespace Sys2Proof

open Sys2Proof.Machine

/-- The codes that the instruction reads or names besides 64-bit ones: a, b and, with a modifier word of a class
that accepts it, SRCC (R78, R117). -/
def VecForm.codes (f : VecForm) : List Src :=
  match f.m with
  | some m =>
    match f.cls with
    | .int | .float | .slide => f.src ++ [m.srcc]
    | .cmp | .cvt | .red => f.src
  | none => f.src

/-- The scalar registers read. -/
def VecForm.readsS (f : VecForm) : List Nat := f.codes.flatMap srcS ++ f.src64.toList.flatMap srcS

/-- The scalar registers written. -/
def VecForm.writesS (f : VecForm) : List Nat :=
  match f.dst with
  | .spair q => [32 + 2 * q.toNat, 33 + 2 * q.toNat]
  | _ => []

/-- The scalar registers named (R95). -/
def VecForm.sregs (f : VecForm) : List Nat := f.readsS ++ f.writesS

/-- The vector registers named (R95). -/
def VecForm.vregs (f : VecForm) : List Nat :=
  f.codes.flatMap srcV ++ f.src64.toList.flatMap (fun c => (srcV c).flatMap (fun r => [r, r + 1]))
    ++ match f.dst with
      | .v32 d => [d.toNat]
      | .v64 d => [d.toNat, d.toNat + 1]
      | .spair _ | .none => []

/-- The latches read, SRCC's among them (R40, R117). -/
def VecForm.latches (f : VecForm) : List Nat := f.codes.flatMap srcB

end Sys2Proof

namespace Sys2Proof.Machine

/-! ### Results -/

/-- The result of one run of a vector instruction: lanes (with the high halves of a 64-bit result, or the mask bits
of a compare), flags, and poison. -/
structure VRes where
  lanes  : List Lane
  hi     : List Lane
  flags  : BitVec 6
  poison : LaneMask
  deriving DecidableEq, Repr

/-- The values that a run reads: the sources in order, the third source or fill, and the 64-bit source. -/
structure VIn where
  src   : List VRegV
  third : VRegV
  wide  : VRegV × VRegV
  deriving DecidableEq, Repr

/-- A source by position. -/
def VIn.get (x : VIn) (i : Nat) : VRegV := x.src.getD i ⟨[], 0, 0⟩

end Sys2Proof.Machine

namespace Sys2Proof

open Sys2Proof.Machine

/-- The third source of R79: SRCC with a modifier word, else the register that vd names. -/
def VecForm.thirdOf (f : VecForm) (w : Wave) (latches : List VRegV) : VRegV :=
  match f.m with
  | some m => w.source latches m.srcc
  | none => match f.dst with
    | .v32 d => w.v d.toNat
    | _ => ⟨[], 0, 0⟩

/-- The values that a run reads, with its latches. -/
def VecForm.inputs (f : VecForm) (w : Wave) (latches : List VRegV) : VIn :=
  { src := f.src.map (w.source latches)
    third :=
      if f.third then f.thirdOf w latches
      else match f.m, f.cls with
        | some m, .slide => w.source latches m.srcc
        | _, _ => ⟨[], w.eg, 0⟩
    wide := match f.src64 with
      | some c => w.source64 c
      | none => (⟨[], w.eg, 0⟩, ⟨[], w.eg, 0⟩) }

/-- The sources that count for tag and poison: a, b, a third source or fill where there is one, the 64-bit source
(R116, R264). -/
def VecForm.counted (f : VecForm) (x : VIn) : List VRegV :=
  x.src ++ (if f.third || (f.cls = .slide && f.m.isSome) then [x.third] else [])
    ++ (if f.src64.isSome then [x.wide.1, x.wide.2] else [])

/-- The result's tag: the smallest of the sources' and EG (R264). -/
def VecForm.tag (f : VecForm) (w : Wave) (x : VIn) : Grade := (f.counted x).foldl (fun t v => Grade.min t v.tag) w.eg

/-- The poison of a lanewise result: that of any source in the lane (R116). -/
def VecForm.poison (f : VecForm) (x : VIn) : LaneMask := (f.counted x).foldl (fun p v => p ||| v.poison) 0

end Sys2Proof

namespace Sys2Proof.Machine

/-- A lane-by-lane result: the function gives the lane and its flags; only active lanes count (R45). -/
def lanewise (w : Wave) (mask : LaneMask) (poison : LaneMask) (g : Nat → Nat × BitVec 6) : VRes :=
  let rs := (List.range w.width).map (fun l => if mask.getLsbD l then g l else (0, 0))
  { lanes := rs.map (fun r => BitVec.ofNat 32 r.1), hi := [],
    flags := rs.foldl (fun fl r => fl ||| r.2) 0, poison := poison }

/-- Active lanes of a result as a new latch holds them; inactive lanes hold 0 (R41). -/
def latchOf (w : Wave) (mask : LaneMask) (r : VRes) (tag : Grade) : VRegV :=
  ⟨mergeLanes w.width mask r.lanes [], tag, r.poison &&& mask⟩

/-! ### Repetition and injection (R270, R271, R274) -/

/-- The runs of a repeated instruction before a disagreement: 1, 1, 2, 3 (R263, R271). -/
def runsOf (eg : Grade) : Nat := if eg.toNat < 2 then 1 else eg.toNat

/-- DARM is set and run DREP executes at this grade without a disagreement before it: the next repeated instruction is
struck (R274). At grades 0 and 1 nothing is repeated. -/
def Wave.struck (w : Wave) : Bool :=
  bit w.ginj 15 && decide (2 ≤ w.eg.toNat) && decide (bits w.ginj 14 13 < runsOf w.eg)

/-- DLANE, if it is an active lane. -/
def Wave.laneArmed (w : Wave) (mask : LaneMask) : Option Nat :=
  let l := bits w.ginj 12 6
  if bit w.ginj 15 && decide (l < w.width) && mask.getLsbD l then some l else none

/-- DARM cleared: it has fired (R274). -/
def Wave.disarm (w : Wave) : Wave := { w with ginj := setBits w.ginj 15 15 0 }

/-- A lane list with one bit of a lane inverted. -/
def flipLane (xs : List Lane) (l b : Nat) : List Lane := setAt xs l (xs.getD l 0 ^^^ BitVec.ofNat 32 (2 ^ b))

/-- A struck run's result: one bit inverted in a lane, of its high half where `h` says so. A bit outside those that the
instruction produces changes nothing (R274). -/
def strike (dst : VDst) (l b : Nat) (h : Bool) (r : VRes) : VRes :=
  match dst with
  | .v64 _ => if h then { r with hi := flipLane r.hi l b } else { r with lanes := flipLane r.lanes l b }
  | .spair _ => if h || b != 0 then r else { r with lanes := flipLane r.lanes l 0 }
  | .v32 _ | .none => { r with lanes := flipLane r.lanes l b }

/-- Two runs differ in an active, unpoisoned lane, or in their flags (R270). -/
def differ (w : Wave) (mask : LaneMask) (r q : VRes) : Bool :=
  (List.range w.width).any (fun l => mask.getLsbD l && !r.poison.getLsbD l
    && (r.lanes.getD l 0 != q.lanes.getD l 0 || r.hi.getD l 0 != q.hi.getD l 0)) || r.flags != q.flags

/-- The results of the three runs of a repeated instruction, the third of which may not execute. -/
structure Runs where
  first  : VRes
  second : VRes
  third  : VRes
  deriving DecidableEq, Repr

/-- A run's result by its number. -/
def Runs.get (q : Runs) (i : Nat) : VRes := if i = 0 then q.first else if i = 1 then q.second else q.third

/-- A lane of a result, with its high half. -/
def VRes.value (r : VRes) (l : Nat) : Lane × Lane := (r.lanes.getD l 0, r.hi.getD l 0)

/-- The run whose value of a lane two runs share; none if no two do (R271). -/
def Runs.shared (q : Runs) (three : Bool) (l : Nat) : Option Nat :=
  if q.first.value l = q.second.value l ∨ !three then some 0
  else if q.first.value l = q.third.value l then some 0
  else if q.second.value l = q.third.value l then some 1
  else none

/-- The lanes that a vote leaves unsettled: active, not poisoned, and no two runs agree (R270, R271). -/
def Runs.unsettled (q : Runs) (w : Wave) (mask : LaneMask) (three : Bool) : LaneMask :=
  (List.range w.width).foldl (fun m l =>
    if mask.getLsbD l && !q.first.poison.getLsbD l && (q.shared three l).isNone then m ||| ones l 1 else m) 0

/-- What the vote commits: in each lane the value that two runs share, in an unsettled one run 3's, poisoned (R271). -/
def Runs.voted (q : Runs) (w : Wave) (mask : LaneMask) (three : Bool) : VRes :=
  let pick := fun (l : Nat) => (q.get ((q.shared three l).getD 2)).value l
  { lanes := (List.range w.width).map (fun l => (pick l).1)
    hi := if q.first.hi.isEmpty then [] else (List.range w.width).map (fun l => (pick l).2)
    flags := q.first.flags
    poison := q.first.poison ||| q.unsettled w mask three }

/-- A run's result with the unsettled lanes as they are written: run 3's value, poisoned. -/
def VRes.unsettle (r third : VRes) (bad : LaneMask) : VRes :=
  if bad = 0 then r
  else
    let mix := fun (xs ys : List Lane) => xs.zipIdx.map (fun x => if bad.getLsbD x.2 then ys.getD x.2 0 else x.1)
    { r with lanes := mix r.lanes third.lanes, hi := mix r.hi third.hi, poison := r.poison ||| bad }

/-- The outcome of a vote: the wave, what is committed, the result of a run without a fault, the runs that stand apart
with their results, and the unsettled lanes. -/
structure Voted where
  w    : Wave
  out  : VRes
  base : VRes
  runs : List (RunAlt × VRes)
  bad  : LaneMask
  deriving DecidableEq, Repr

/-- The runs of a repeated instruction as faults strike them (R271, R274): `r` is the result of a run without a fault,
a run that stands apart has a result from its own latches. -/
def Wave.runs (w : Wave) (mask : LaneMask) (dst : VDst) (r : VRes) (alts : List (RunAlt × VRes)) : Runs :=
  let run := fun (i : Nat) =>
    let a := alts.find? (fun a => a.1.run == i)
    let x := (a.map Prod.snd).getD r
    let x := match w.laneArmed mask with
      | some l => if bits w.ginj 14 13 = i && !(a.any (fun a => a.1.armed)) then
          strike dst l (bits w.ginj 4 0) (bit w.ginj 5) x else x
      | none => x
    (w.faults.filter (fun y => y.run == i && decide (y.lane < w.width) && mask.getLsbD y.lane)).foldl
      (fun x y => strike dst y.lane (y.bit % 32) (decide (32 ≤ y.bit)) x) x
  { first := run 0, second := run 1, third := run 2 }

/-- The vote on the runs of a repeated instruction (R270, R271). At grade 2 the third run executes once the first two of
the instruction or of its chain have differed; an injection into it fires with it (R274). -/
def Wave.voteRuns (w : Wave) (mask : LaneMask) (dst : VDst) (r : VRes) (alts : List (RunAlt × VRes)) : Voted :=
  let q := w.runs mask dst r alts
  let apart := differ w mask q.first q.second
  let three := w.eg == 3 || w.chainDis || apart
  let differs := apart || (three && (differ w mask q.first q.third || differ w mask q.second q.third))
  let late := alts.find? (fun a => a.1.run == 2)
  let now := (w.laneArmed mask).isSome
  let fired := fun (i : Nat) => bits w.ginj 14 13 == i && (now || alts.any (fun a => a.1.run == i && a.1.armed))
  let fl := q.first.flags ||| q.second.flags
    ||| (if three then q.third.flags ||| (late.map (fun a => a.1.flags)).getD 0 else 0)
  let w1 := (w.raiseFlags fl)
  let w2 := if fired 0 || fired 1 || (three && fired 2) then w1.disarm else w1
  let w3 := if differs && !w.chainDis then { w2.disagree 1 with chainDis := true } else w2
  let bad := q.unsettled w mask three
  let apartRuns := (List.range 3).filterMap (fun i =>
    let a := alts.find? (fun a => a.1.run == i)
    if a.isNone && q.get i = r then none
    else some ({ run := i, latches := (a.map (fun a => a.1.latches)).getD w.latches
                 flags := (a.map (fun a => a.1.flags)).getD 0 ||| (q.get i).flags
                 armed := a.any (fun a => a.1.armed) || fired i }, (q.get i).unsettle q.third bad))
  { w := { w3 with faults := [] }, out := q.voted w mask three, base := r.unsettle q.third bad, runs := apartRuns, bad := bad }

/-- A repeated instruction's runs and their vote; where no fault strikes and no run stands apart, every run gives the same
(R72, R270, R271). -/
def vote (w : Wave) (mask : LaneMask) (dst : VDst) (r : VRes) (alts : List (RunAlt × VRes)) : Voted :=
  if w.eg.toNat < 2 || (w.faults.isEmpty && (w.laneArmed mask).isNone && alts.isEmpty) then
    { w := w.raiseFlags r.flags, out := r, base := r, runs := [], bad := 0 }
  else w.voteRuns mask dst r alts

/-! ### The common form of a vector instruction -/

/-- The latches that the executing fragment can read: those of its own open chain (R41, R42, R162). -/
def Ctx.open' (c : Ctx) : List VRegV := if c.w.chainFrag = c.fid then c.w.latches else []

/-- The context of a vector instruction: a head is not in the chain before it (R40, R279). -/
def Ctx.enter (c : Ctx) (f : VecForm) : Ctx := if f.latches.isEmpty then c.ended else c

/-- The causes that a vector instruction raises after decode: BUDGET (R95) and LATCH (R42), together when both arise
(R48). -/
def Ctx.vectorCauses (c : Ctx) (f : VecForm) : Word :=
  (if c.w.budget f.sregs f.vregs then 0 else Cause.budget)
    ||| (if f.latches.any (fun i => decide (c.open'.length ≤ i)) then Cause.latch else 0)

/-- The checks of a vector instruction after decode: BUDGET and LATCH, with INTEG where a lane that it consumes is poisoned
(R48), then a stall while a named scalar register is pending (R292). -/
def Ctx.vector (c : Ctx) (s : State) (f : VecForm) (consumed : LaneMask) (k : Ctx → State → State) : State :=
  if c.vectorCauses f ≠ 0 then
    if consumed &&& c.f.mask ≠ 0 then c.consume s (c.vectorCauses f) 0 false else c.raise s (c.vectorCauses f) 0
  else if c.w.pendingAny f.sregs then c.stall s (.score f.sregs)
  else k (c.observe s f.writesS f.readsS).1 (c.observe s f.writesS f.readsS).2

/-- The latches before the instruction: kept when it reads one, else none, because it heads a chain (R40, R41). -/
def Ctx.before (c : Ctx) (f : VecForm) : List VRegV := if f.latches.isEmpty then [] else c.open'

/-- The runs that stand apart before the instruction, with their latches. -/
def Ctx.altsBefore (c : Ctx) (f : VecForm) : List RunAlt := if f.latches.isEmpty then [] else c.w.alts

/-- The result written to the destination, unless K = 1 (R39, R41, R121). -/
def writeDst (w : Wave) (mask : LaneMask) (k : Bool) (dst : VDst) (r : VRes) (tag : Grade) : Wave :=
  match dst with
  | .v32 d => if k then w else w.setV mask d.toNat ⟨r.lanes, tag, r.poison⟩
  | .v64 d => w.setPair mask d.toNat r.lanes r.hi tag r.poison
  | .spair q =>
    let m := (List.range w.width).foldl (fun m l =>
      if mask.getLsbD l && r.lanes.getD l 0 != 0 then m ||| BitVec.ofNat 128 (2 ^ l) else m) (0 : BitVec 128)
    (w.setS (BitVec.ofNat 6 (32 + 2 * q.toNat)) (m.extractLsb' 0 64) tag).setS
      (BitVec.ofNat 6 (33 + 2 * q.toNat)) (m.extractLsb' 64 64) tag
  | .none => w

/-- The latches after the instruction: its result enters B0; a destination of 64 bits or a scalar pair ends the
chain and writes none, and so does the fourth instruction (R40, R41). -/
def pushLatch (old : List VRegV) (dst : VDst) (b : VRegV) : List VRegV :=
  match dst with
  | .v64 _ | .spair _ => []
  | .v32 _ | .none => if old.length = 3 then [] else b :: old

/-- The end of a vector instruction: what is committed goes to the destination, each run's own result to its latches, and
the next instruction follows. -/
def Ctx.finishV (c : Ctx) (s : State) (f : VecForm) (v : Voted) (tag : Grade) : State :=
  let w1 := writeDst v.w c.f.mask f.k f.dst v.out tag
  let ls := pushLatch (c.before f) f.dst (latchOf v.w c.f.mask v.base tag)
  let alts := v.runs.map (fun a =>
    { a.1 with latches := pushLatch a.1.latches f.dst (latchOf v.w c.f.mask a.2 tag) })
  let w2 := { w1 with latches := ls, chainFrag := c.fid, alts := if ls.isEmpty then [] else alts,
                      chainDis := w1.chainDis && !ls.isEmpty }
  let w2 := if ls.isEmpty then w2.applyEg else w2
  s.setWave c.wid (w2.setFrag c.fid (c.f.at' c.after))

/-- The VOTE records of the lanes that a vote left unsettled, and the origin word of their poison (R268, R269, R271). -/
def Ctx.noteVote (c : Ctx) (s : State) (v : Voted) : State × Voted :=
  if v.bad = 0 then (s, v)
  else
    let eg := c.w.eg.toNat
    ((List.range c.w.width).foldl (fun s l =>
        if v.bad.getLsbD l then s.waveRecord c.w c.g c.g.owner.toNat 4 eg 0 c.f.pc else s) s,
      { v with w := v.w.fillOrigin (originWord c.g.owner.toNat 4 eg 0) })

/-- A repeated vector instruction: its runs (R270), the vote, the writes. `g` computes one run. -/
def Ctx.runVector (c : Ctx) (s : State) (f : VecForm) (g : Wave → VIn → VRes) : State :=
  let w := if f.latches.isEmpty then c.w.endChain else c.w
  let x := f.inputs w (c.before f)
  let alts := (c.altsBefore f).map (fun a => (a, g w (f.inputs w a.latches)))
  let v := c.noteVote s (vote w c.f.mask f.dst (g w x) alts)
  c.finishV v.1 f v.2 (f.tag w x)

/-- The meaning of a vector instruction outside the memory group: checks, then its runs. -/
def vectorOp (s : State) (f : VecForm) (g : Ctx → Wave → VIn → VRes) : Out State :=
  withCtx s fun c0 =>
    let c := c0.enter f
    c.vector s f 0 fun c s => c.runVector s f (g c)

/-- The meaning of an instruction whose result in each lane is a function of the sources in that lane. -/
def laneOp (s : State) (f : VecForm) (g : Wave → VIn → Nat → Nat × BitVec 6) : Out State :=
  vectorOp s f fun c w x => lanewise w c.f.mask (f.poison x) (g w x)

/-- The poison of the sources that an instruction counts. -/
def Ctx.srcPoison (c : Ctx) (f : VecForm) : LaneMask := f.poison (f.inputs c.w (c.before f))

/-- The meaning of a compare: a poisoned active lane is consumed and raises INTEG (R121, R267). -/
def compareOp (s : State) (f : VecForm) (g : Wave → VIn → Nat → Bool) : Out State :=
  withCtx s fun c0 =>
    let c := c0.enter f
    c.vector s f (c.srcPoison f) fun c s =>
    if c.srcPoison f &&& c.f.mask ≠ 0 then c.consume s 0 0 false
    else c.runVector s f fun w x => lanewise w c.f.mask 0 (fun l => (if g w x l then 1 else 0, 0))

/-! ### Scalar instructions that are repeated (R97, R270) -/

/-- The wave after a repeated scalar instruction's runs that no fault of the hardware strikes: an injected one fires
and is outvoted; it counts as a disagreement where its bit exists in a result of n bits (R271, R274). -/
def Wave.repeatScalar (w : Wave) (n : Nat) : Wave :=
  if w.struck then
    if bits w.ginj 5 5 * 32 + bits w.ginj 4 0 < n then w.disarm.disagree 1 else w.disarm
  else w

/-- The bits of a result of n bits that faults invert in a run (R271, R274). -/
def Wave.runBits (w : Wave) (n i : Nat) : Word :=
  let put := fun (x : Word) (b : Nat) => if b < n then x ^^^ BitVec.ofNat 64 (2 ^ b) else x
  let arm := if bit w.ginj 15 && bits w.ginj 14 13 == i then put 0 (bits w.ginj 5 5 * 32 + bits w.ginj 4 0) else 0
  (w.faults.filter (fun y => y.run == i)).foldl (fun x y => put x y.bit) arm

/-- A repeated scalar instruction with a result of n bits: the wave after its runs, and what the vote settles on, if
it does (R270, R271, R274). -/
def Wave.voteScalar (w : Wave) (n : Nat) (v : Word) : Wave × Option Word :=
  if w.eg.toNat < 2 || w.faults.isEmpty then (w.repeatScalar n, some v)
  else
    let a := v ^^^ w.runBits n 0
    let b := v ^^^ w.runBits n 1
    let c := v ^^^ w.runBits n 2
    let three := w.eg == 3 || a != b
    let w1 := if bit w.ginj 15 && decide (bits w.ginj 14 13 < if three then 3 else 2) then w.disarm else w
    let w2 := if a != b || (three && (a != c || b != c)) then w1.disagree 1 else w1
    ({ w2 with faults := [] },
      if a = b ∨ !three then some a else if a = c then some a else if b = c then some b else none)

/-- The end of a repeated scalar instruction with a result of n bits: it goes where `k` puts it; where no two runs
agree, a VOTE record is written and INTEG is raised (R269, R271). INTEG is exact, yet the runs differ: the model advances
DISAGREE and clears DARM before it raises (log 75). -/
def Ctx.repeated (c : Ctx) (s : State) (n : Nat) (v : Word) (k : Wave → Word → Wave) : State :=
  match c.w.voteScalar n v with
  | (w, some x) => c.next s (k w x)
  | (w, none) =>
    c.raise ((s.setWave c.wid w).waveRecord c.w c.g c.g.owner.toNat 4 c.w.eg.toNat 0 c.f.pc) Cause.integ 0

end Sys2Proof.Machine
end

