-- ==== Sys2Proof/Machine/Lanes.lean ====
section
/-! DEFINITION. Lane movement and reductions (R135 to R140), and the GRADE group (R275 to R279). -/

namespace Sys2Proof.Machine

/-! ### Movement (R135 to R139) -/

/-- A result whose lanes and poison are functions of the lane; only active lanes count. -/
def movedLanes (w : Wave) (mask : LaneMask) (g : Nat → Lane) (p : Nat → Bool) : VRes :=
  { lanes := (List.range w.width).map (fun l => if mask.getLsbD l then g l else 0), hi := [], flags := 0,
    poison := (List.range w.width).foldl (fun m l => if mask.getLsbD l && p l then m ||| ones l 1 else m) 0 }

/-- Where unit i of a slide comes from: unit j of the source, or of the fill (R136). -/
def slideFrom (up : Bool) (n' size i : Nat) : Bool × Nat :=
  if up then (if n' ≤ i then (true, i - n') else (false, size - n' + i))
  else (if i + n' < size then (true, i + n') else (false, i + n' - size))

/-- The lane of a unit, for lanes or 16-bit elements. -/
def unitLane (half : Bool) (i : Nat) : Nat := if half then i / 2 else i

/-- VSLIDE (R136). -/
def slide (s : State) (m : Option ModWord) (k : Bool) (d : VReg) (a : Src) (u : BitVec 1) (n : BitVec 7)
    (up : Bool) : Out State :=
  vectorOp s (.arith .slide m k d [a] false) fun c w x =>
    let half := u == 1
    let size := if half then 2 * w.width else w.width
    let n' := min n.toNat size
    let src := fun (i : Nat) =>
      let q := slideFrom up n' size i
      (if q.1 then x.get 0 else x.third, q.2)
    let unit := fun (i : Nat) =>
      let q := src i
      if half then (q.1.lane (q.2 / 2)).toNat / 2 ^ (16 * (q.2 % 2)) % 65536 else (q.1.lane q.2).toNat
    let bad := fun (i : Nat) =>
      let q := src i
      q.1.poison.getLsbD (unitLane half q.2)
    movedLanes w c.f.mask
      (fun l => if half then BitVec.ofNat 32 (unit (2 * l) + 65536 * unit (2 * l + 1)) else BitVec.ofNat 32 (unit l))
      (fun l => if half then bad (2 * l) || bad (2 * l + 1) else bad l)

/-- VSLIDE.up (R136). -/
def execVslideUp (m : Option ModWord) (k : Bool) (d : VReg) (a : Src) (u : BitVec 1) (n : BitVec 7) (s : State) :
    Out State := slide s m k d a u n true

/-- VSLIDE.dn (R136). -/
def execVslideDn (m : Option ModWord) (k : Bool) (d : VReg) (a : Src) (u : BitVec 1) (n : BitVec 7) (s : State) :
    Out State := slide s m k d a u n false

/-- VSWAPP (R137). -/
def execVswapp (k : Bool) (d : VReg) (a : Src) (s : State) : Out State :=
  vectorOp s (.bare k [a] (.v32 d)) fun c w x =>
    movedLanes w c.f.mask (fun l => (x.get 0).lane (l ^^^ 1)) (fun l => (x.get 0).poison.getLsbD (l ^^^ 1))

/-- VPERM: an index outside the wave gives 0 (R138). -/
def execVperm (k : Bool) (d : VReg) (a b : Src) (s : State) : Out State :=
  vectorOp s (.bare k [a, b] (.v32 d)) fun c w x =>
    let idx := fun l => ((x.get 1).lane l).toNat
    movedLanes w c.f.mask (fun l => if idx l < w.width then (x.get 0).lane (idx l) else 0)
      (fun l => (x.get 1).poison.getLsbD l || (decide (idx l < w.width) && (x.get 0).poison.getLsbD (idx l)))

/-- VBCAST: lane 0 of b is the index, active or not (R139). -/
def execVbcast (k : Bool) (d : VReg) (a b : Src) (s : State) : Out State :=
  vectorOp s (.bare k [a, b] (.v32 d)) fun c w x =>
    let i := ((x.get 1).lane 0).toNat
    movedLanes w c.f.mask (fun _ => if i < w.width then (x.get 0).lane i else 0)
      (fun _ => (x.get 1).poison.getLsbD 0 || (decide (i < w.width) && (x.get 0).poison.getLsbD i))

/-! ### VRED (R68, R140) -/

/-- One node of a reduction: the pattern with its flags. Operation 0 add, 1 min, 2 max; format 0 f32, 6 i32, 7 z32. -/
def redNode (op fmt : Nat) (mode : Rnd) (x y : Nat) : Nat × BitVec 6 :=
  if fmt = 0 then
    let a := Fp.decode .f32 x
    let b := Fp.decode .f32 y
    let r := if op = 0 then sumFp mode [a, b] else if op = 1 then (minFp a b, 0) else (maxFp a b, 0)
    let t := roundTo .f32 mode r.1
    (t.1, r.2 ||| t.2)
  else if op = 0 then ((x + y) % 2 ^ 32, 0)
  else
    let lt := if fmt = 6 then decide (signedOf 32 x < signedOf 32 y) else decide (x < y)
    (if op = 1 then (if lt then x else y) else (if lt then y else x), 0)

/-- The identity of an operation (R68). -/
def redIdentity (op fmt : Nat) : Nat :=
  match op, fmt with
  | 0, 0 => 0x80000000
  | 1, 0 => 0x7F800000
  | 2, 0 => 0xFF800000
  | 0, _ => 0
  | 1, 6 => 0x7FFFFFFF
  | 2, 6 => 0x80000000
  | 1, _ => 0xFFFFFFFF
  | _, _ => 0

/-- One level of the tree: neighbours combined, the lower one on the left (R68). -/
def redLevel (op fmt : Nat) (mode : Rnd) : List Nat → List Nat × BitVec 6
  | x :: y :: rest =>
    let n := redNode op fmt mode x y
    let r := redLevel op fmt mode rest
    (n.1 :: r.1, n.2 ||| r.2)
  | xs => (xs, 0)

/-- The tree of n levels (R68). -/
def redTree (op fmt : Nat) (mode : Rnd) : Nat → List Nat → Nat × BitVec 6
  | 0, xs => (xs.headD 0, 0)
  | n + 1, xs =>
    let l := redLevel op fmt mode xs
    let t := redTree op fmt mode n l.1
    (t.1, l.2 ||| t.2)

/-- VRED (R140): every active lane gets the reduction of the active lanes; poison of any of them reaches it. -/
def execVred (m : Option ModWord) (k : Bool) (d : VReg) (a : Src) (o fm : BitVec 4) (s : State) : Out State :=
  vectorOp s (.arith .red m k d [a] false) fun c w x =>
    let xs := (List.range w.width).map (fun l =>
      if c.f.mask.getLsbD l then ((x.get 0).lane l).toNat else redIdentity o.toNat fm.toNat)
    let r := redTree o.toNat fm.toNat (Rnd.of (ModWord.get m).rnd) 7 (xs)
    let bad := (x.get 0).poison &&& c.f.mask != 0
    { lanes := (List.range w.width).map (fun l => if c.f.mask.getLsbD l then BitVec.ofNat 32 r.1 else 0), hi := [],
      flags := if c.f.mask = 0 then 0 else r.2
      poison := if bad then c.f.mask else 0 }

/-! ### The GRADE group (R275 to R279), which executes once at every grade -/

/-- The end of a vector instruction that executes once: the runs of its chain go on with the same result. -/
def Ctx.finishOnce (c : Ctx) (s : State) (w : Wave) (f : VecForm) (r : VRes) (tag : Grade) : State :=
  c.finishV s f { w := w, out := r, base := r, runs := (c.altsBefore f).map (fun a => (a, r)), bad := 0 } tag

/-- The wave as a vector instruction begins: a chain head ends the chain before it (R40, R41). -/
def Ctx.begin' (c : Ctx) (f : VecForm) : Wave := if f.latches.isEmpty then c.w.endChain else c.w

/-- A grade instruction, which consumes its source or not. -/
def onceOp (s : State) (f : VecForm) (consumes : Bool) (g : State → Ctx → Wave → VRegV → State) : Out State :=
  withCtx s fun c0 =>
    let c := c0.enter f
    c.vector s f (if consumes then c.srcPoison f else 0) fun c s =>
      g s c (c.begin' f) ((f.inputs c.w (c.before f)).get 0)

/-- GRTAG (R276). -/
def execGrtag (k : Bool) (d : VReg) (a : Src) (g : BitVec 2) (s : State) : Out State :=
  let f := VecForm.bare k [a] (.v32 d)
  onceOp s f false fun s c w x =>
    let val := fun l =>
      let p := x.poison.getLsbD l
      BitVec.ofNat 32 (x.tag.toNat + (if p then 4 else 0) + (if x.tag.toNat < g.toNat || p then 8 else 0))
    c.finishOnce s w f (movedLanes w c.f.mask val (fun _ => false)) w.eg

/-- GRDIL (R277). -/
def execGrdil (k : Bool) (d : VReg) (a : Src) (g : BitVec 2) (s : State) : Out State :=
  let f := VecForm.bare k [a] (.v32 d)
  onceOp s f false fun s c w x =>
    let t := Grade.min g w.eg
    let w := if x.tag.toNat < t.toNat then w.dilute else w
    c.finishOnce s w f (movedLanes w c.f.mask x.lane x.poison.getLsbD) t

/-- GRCHK consumes poison; else the value goes to B0 alone (R278). -/
def execGrchk (a : Src) (s : State) : Out State :=
  let f := VecForm.bare false [a] .none
  onceOp s f true fun s c w x =>
    if x.poison &&& c.f.mask ≠ 0 then c.consume s 0 0 false
    else c.finishOnce s w f (movedLanes w c.f.mask x.lane x.poison.getLsbD) x.tag

/-- GRLIM: EG := min(g, L) from the end of its chain on; B0 receives zeros (R279). -/
def execGrlim (g : BitVec 2) (s : State) : Out State :=
  let f := VecForm.bare false [] .none
  onceOp s f false fun s c w _ =>
    let eg := Grade.min g w.launchG
    let r := movedLanes w c.f.mask (fun _ => 0) (fun _ => false)
    c.finishOnce s { w with egNext := some eg } f r w.eg

end Sys2Proof.Machine
end

