-- ==== Sys2Proof/Decode.lean ====
section
/-! DEFINITION. Parcels, instruction words and second words (R73 to R94, R392): the decoder, total on any
bytes and rejecting by name, and the encoder written from the same tables. -/

namespace Sys2Proof

/-- Why bytes are no instruction (R94). -/
inductive DecodeErr where
  /-- Fewer bytes than the instruction has. -/
  | short
  /-- A scalar major that R87 reserves, or a Compass operation that R392 reserves. -/
  | major
  /-- A minor, sub-code or selector that the group does not list (R88, R90, R91, R93). -/
  | minor
  /-- A field that must be zero is not (R87 to R93). -/
  | nonzero
  /-- A second word where none may stand (R78). -/
  | noSecond
  /-- A well-formedness check fails. -/
  | ill (e : IllFormed)
  deriving DecidableEq, Repr

/-! ### The fields of a word (R74, R75) -/

def fMajor (w : BitVec 32) : Nat := (w.extractLsb' 25 6).toNat
def fD (w : BitVec 32) : SReg := w.extractLsb' 19 6
def fA (w : BitVec 32) : SReg := w.extractLsb' 13 6
def fB (w : BitVec 32) : SReg := w.extractLsb' 7 6
def fMinor (w : BitVec 32) : BitVec 7 := w.extractLsb' 0 7
def fOp (w : BitVec 32) : BitVec 4 := w.extractLsb' 3 4
def fLow3 (w : BitVec 32) : BitVec 3 := w.extractLsb' 0 3
def fImm13 (w : BitVec 32) : BitVec 13 := w.extractLsb' 0 13
def fImm19 (w : BitVec 32) : BitVec 19 := w.extractLsb' 0 19
def fCond (w : BitVec 32) : BitVec 4 := w.extractLsb' 21 4
def fSbA (w : BitVec 32) : SReg := w.extractLsb' 15 6
def fOff15 (w : BitVec 32) : BitVec 15 := w.extractLsb' 0 15
def fOff25 (w : BitVec 32) : BitVec 25 := w.extractLsb' 0 25
def vM (w : BitVec 32) : Bool := w.getLsbD 24
def vK (w : BitVec 32) : Bool := w.getLsbD 23
def vD (w : BitVec 32) : VReg := w.extractLsb' 16 7
def vA (w : BitVec 32) : Src := w.extractLsb' 8 8
def vB (w : BitVec 32) : Src := w.extractLsb' 0 8

/-- The modifier word of a second word; none if bits [9:0] are not zero (R78). -/
def modOf (x : BitVec 32) : Option ModWord :=
  if x.extractLsb' 0 10 = 0 then
    some { sat := x.extractLsb' 30 2, nega := x.getLsbD 29, negb := x.getLsbD 28, absa := x.getLsbD 27,
           absb := x.getLsbD 26, scale := x.extractLsb' 21 5, rnd := x.extractLsb' 18 3,
           srcc := x.extractLsb' 10 8 }
  else none

/-- The memory word of a second word (R80). -/
def memOf (x : BitVec 32) : MemWord :=
  { disp := x.extractLsb' 16 16, scope := x.extractLsb' 13 3, ord := x.extractLsb' 11 2,
    hint := x.extractLsb' 9 2, ty := x.extractLsb' 5 4, atop := x.extractLsb' 0 5 }

/-! ### The decoder -/

/-- The instruction, if a condition on its fields holds. -/
def need (c : Bool) (i : Instr) : Except DecodeErr Instr := if c then .ok i else .error .nonzero

/-- The SOP group (R88). -/
def decodeSop (w : BitVec 32) : Except DecodeErr Instr :=
  match (fMinor w).toNat with
  | 0x00 => .ok (.sadd (fD w) (fA w) (fB w))
  | 0x01 => .ok (.ssub (fD w) (fA w) (fB w))
  | 0x02 => .ok (.smul (fD w) (fA w) (fB w))
  | 0x03 => .ok (.smulh (fD w) (fA w) (fB w))
  | 0x04 => .ok (.smulhz (fD w) (fA w) (fB w))
  | 0x05 => .ok (.sdiv (fD w) (fA w) (fB w))
  | 0x06 => .ok (.sdivz (fD w) (fA w) (fB w))
  | 0x07 => .ok (.srem (fD w) (fA w) (fB w))
  | 0x08 => .ok (.sremz (fD w) (fA w) (fB w))
  | 0x09 => .ok (.sand (fD w) (fA w) (fB w))
  | 0x0A => .ok (.sor (fD w) (fA w) (fB w))
  | 0x0B => .ok (.sxor (fD w) (fA w) (fB w))
  | 0x0C => .ok (.sshl (fD w) (fA w) (fB w))
  | 0x0D => .ok (.sshr (fD w) (fA w) (fB w))
  | 0x0E => .ok (.ssra (fD w) (fA w) (fB w))
  | 0x0F => .ok (.srol (fD w) (fA w) (fB w))
  | 0x10 => .ok (.smin (fD w) (fA w) (fB w))
  | 0x11 => .ok (.smax (fD w) (fA w) (fB w))
  | 0x12 => .ok (.sminz (fD w) (fA w) (fB w))
  | 0x13 => .ok (.smaxz (fD w) (fA w) (fB w))
  | 0x14 => need (fB w == 0) (.sclz (fD w) (fA w))
  | 0x15 => need (fB w == 0) (.spopc (fD w) (fA w))
  | 0x16 => .ok (.sbfx (fD w) (fA w) (fB w))
  | 0x17 => .ok (.sbfi (fD w) (fA w) (fB w))
  | 0x18 => .ok (.ssel (fD w) (fA w) (fB w))
  | 0x19 => need (fD w == 0) (.scmp (fA w) (fB w))
  | 0x1A => need (fD w == 0 && fB w == 0) (.jmpr (fA w))
  | 0x1B => need (fD w == 0 && fB w == 0) (.ret (fA w))
  | 0x1C => need (fA w == 0 && fB w == 0) (.maskget (fD w))
  | 0x1D => need (fD w == 0 && fB w == 0) (.maskset (fA w))
  | 0x1E => need (fD w == 0 && fB w == 0) (.mand (fA w))
  | 0x1F => need (fD w == 0 && fB w == 0) (.mandn (fA w))
  | 0x20 => need (fD w == 0 && fB w == 0) (.mor (fA w))
  | 0x21 => need (fA w == 0 && fB w == 0) (.mpopc (fD w))
  | _ => .error .minor

/-- The PAR group (R90). -/
def decodePar (w : BitVec 32) : Except DecodeErr Instr :=
  match (fMinor w).toNat with
  | 0x00 => need (fD w == 0 && fB w == 0) (.join (fA w))
  | 0x01 => need (fD w == 0 && fA w == 0 && fB w == 0) (.yield)
  | 0x02 => need (fD w == 0 && fA w == 0 && fB w == 0) (.endw)
  | 0x03 => need (fD w == 0 && fB w == 0) (.launch (fA w))
  | 0x04 => need (fD w == 0) (.carve (fA w) (fB w))
  | _ => .error .minor

/-- The EVT group: minor [6:4] is the operation, [3:0] the index (R90). -/
def decodeEvt (w : BitVec 32) : Except DecodeErr Instr :=
  match (w.extractLsb' 4 3).toNat with
  | 0 => need (fD w == 0 && fA w == 0 && fB w == 0 && w.extractLsb' 0 4 == 0) (.bar)
  | 1 => need (fD w == 0 && fB w == 0) (.nbarArv (fA w) (w.extractLsb' 0 4))
  | 2 => need (fD w == 0 && fA w == 0 && fB w == 0) (.nbarWt (w.extractLsb' 0 4))
  | 3 => need (fD w == 0 && fB w == 0) (.mbxSend (fA w) (w.extractLsb' 0 4))
  | 4 => need (fD w == 0 && fB w == 0) (.mbxSendRel (fA w) (w.extractLsb' 0 4))
  | 5 => need (fB w == 0 && w.extractLsb' 0 4 == 0) (.evmask (fD w) (fA w))
  | 6 => need (fA w == 0 && fB w == 0 && w.extractLsb' 0 4 == 0) (.evpoll (fD w))
  | _ => need (fD w == 0 && fB w == 0 && w.extractLsb' 0 4 == 0) (.evclr (fA w))

/-- The MSYS group: minor [6:3] is the operation, [2:0] the scope (R90). -/
def decodeMsys (w : BitVec 32) : Except DecodeErr Instr :=
  match (fOp w).toNat with
  | 0 => need (fD w == 0 && fA w == 0 && fB w == 0) (.fence (fLow3 w))
  | 1 => need (fD w == 0 && fA w == 0 && fB w == 0) (.fenceAcq (fLow3 w))
  | 2 => need (fD w == 0 && fA w == 0 && fB w == 0) (.fenceRel (fLow3 w))
  | 3 => need (fD w == 0 && fB w == 0) (.racq (fA w) (fLow3 w))
  | 4 => need (fD w == 0 && fA w == 0 && fB w == 0 && fLow3 w == 0) (.rfence)
  | 5 => need (fD w == 0 && fB w == 0 && fLow3 w == 0) (.pref (fA w))
  | 6 => need (fD w == 0 && fLow3 w == 0) (.cflush (fA w) (fB w))
  | 7 => need (fD w == 0 && fLow3 w == 0) (.cinv (fA w) (fB w))
  | 8 => need (fLow3 w == 0) (.mscpin (fD w) (fA w) (fB w))
  | 9 => need (fD w == 0 && fB w == 0 && fLow3 w == 0) (.mscunpin (fA w))
  | _ => .error .minor

/-- The STREAM group: minor [6:3] is the operation, [2:0] the qualifier (R90). -/
def decodeStream (w : BitVec 32) : Except DecodeErr Instr :=
  match (fOp w).toNat with
  | 0 => need (fB w == 0 && w.extractLsb' 0 2 == 0) (.xcopy (fD w) (fA w) (w.getLsbD 2))
  | 1 => need (fB w == 0 && w.extractLsb' 0 2 == 0) (.xgath (fD w) (fA w) (w.getLsbD 2))
  | 2 => need (fB w == 0 && w.extractLsb' 0 2 == 0) (.xred (fD w) (fA w) (w.getLsbD 2))
  | 3 => need (fB w == 0 && w.extractLsb' 0 2 == 0) (.xfill (fD w) (fA w) (w.getLsbD 2))
  | 4 => need (fA w == 0 && fB w == 0 && !w.getLsbD 2) (.bclose (fD w) (w.extractLsb' 0 2))
  | 5 => need (fD w == 0 && fB w == 0 && !w.getLsbD 2) (.bwait (fA w) (w.extractLsb' 0 2))
  | 6 => need (fD w == 0 && fB w == 0) (.cbinit (fA w) (fLow3 w))
  | 7 => need (fA w == 0 && fB w == 0) (.cbacq (fD w) (fLow3 w))
  | 8 => need (fD w == 0 && fB w == 0) (.cbcommit (fA w) (fLow3 w))
  | 9 => need (fD w == 0 && fB w == 0) (.cbwait (fA w) (fLow3 w))
  | 10 => need (fD w == 0 && fB w == 0) (.cbrel (fA w) (fLow3 w))
  | _ => .error .minor

/-- The BANK group: minor [6:3] is the operation, [2] is .rel (R90). -/
def decodeBank (w : BitVec 32) : Except DecodeErr Instr :=
  match (fOp w).toNat with
  | 0 => need (fB w == 0 && w.extractLsb' 0 2 == 0) (.nbzero (fD w) (fA w) (w.getLsbD 2))
  | 1 => need (fB w == 0 && w.extractLsb' 0 2 == 0) (.nbcopy (fD w) (fA w) (w.getLsbD 2))
  | 2 => need (fB w == 0 && w.extractLsb' 0 2 == 0) (.nbaxpy (fD w) (fA w) (w.getLsbD 2))
  | 3 => need (fB w == 0 && w.extractLsb' 0 2 == 0) (.nbdot (fD w) (fA w) (w.getLsbD 2))
  | 4 => need (fB w == 0 && w.extractLsb' 0 2 == 0) (.nbscal (fD w) (fA w) (w.getLsbD 2))
  | 5 => need (fD w == 0 && fA w == 0 && fB w == 0 && fLow3 w == 0) (.bfence)
  | _ => .error .minor

/-- The COLL group: minor [6:3] is the operation, [2] is .rel (R90). -/
def decodeColl (w : BitVec 32) : Except DecodeErr Instr :=
  match (fOp w).toNat with
  | 0 => need (fB w == 0 && w.extractLsb' 0 2 == 0) (.xar (fD w) (fA w) (w.getLsbD 2))
  | 1 => need (fB w == 0 && w.extractLsb' 0 2 == 0) (.xag (fD w) (fA w) (w.getLsbD 2))
  | 2 => need (fB w == 0 && w.extractLsb' 0 2 == 0) (.xrs (fD w) (fA w) (w.getLsbD 2))
  | 3 => need (fB w == 0 && w.extractLsb' 0 2 == 0) (.xbcst (fD w) (fA w) (w.getLsbD 2))
  | _ => .error .minor

/-- The SYS group: imm13[12:10] is the operation, [9:0] the code (R91). -/
def decodeSys (w : BitVec 32) : Except DecodeErr Instr :=
  if fD w != 0 || fA w != 0 then .error .nonzero else
  match (w.extractLsb' 10 3).toNat with
  | 0 => .ok (.trap (w.extractLsb' 0 10))
  | 1 => .ok (.sysc (w.extractLsb' 0 10))
  | 2 => .ok (.brk (w.extractLsb' 0 10))
  | 3 => need (w.extractLsb' 0 10 == 0) .tfence
  | 4 => need (w.extractLsb' 0 10 == 0) .tret
  | 5 => need (w.extractLsb' 6 4 == 0) (.causeclr (w.extractLsb' 0 6))
  | _ => .error .minor

/-- The scalar words, by major (R87). -/
def decodeScalar (w : BitVec 32) : Except DecodeErr Instr :=
  match fMajor w with
  | 0x00 => decodeSop w
  | 0x01 => .ok (.saddi (fD w) (fA w) (fImm13 w))
  | 0x02 => need (fD w == 0) (.scmpi (fA w) (fImm13 w))
  | 0x03 => .ok (.sandi (fD w) (fA w) (fImm13 w))
  | 0x04 => .ok (.sori (fD w) (fA w) (fImm13 w))
  | 0x05 => .ok (.sxori (fD w) (fA w) (fImm13 w))
  | 0x06 => need (w.extractLsb' 6 7 == 0) (.sshli (fD w) (fA w) (w.extractLsb' 0 6))
  | 0x07 => need (w.extractLsb' 6 7 == 0) (.sshri (fD w) (fA w) (w.extractLsb' 0 6))
  | 0x08 => need (w.extractLsb' 6 7 == 0) (.ssrai (fD w) (fA w) (w.extractLsb' 0 6))
  | 0x09 => .ok (.slui (fD w) (fImm19 w))
  | 0x0A => need (w.extractLsb' 3 4 == 0) (.slea (fD w) (fA w) (fB w) (fLow3 w))
  | 0x0B => .ok (.br (fOff25 w))
  | 0x0C => .ok (.call (fOff25 w))
  | 0x0D => need (fSbA w == 0) (.bc (fCond w) (fOff15 w))
  | 0x0E => need (fCond w == 0 && fSbA w == 0) (.bmz (fOff15 w))
  | 0x0F => need (fCond w == 0 && fSbA w == 0) (.bmnz (fOff15 w))
  | 0x10 => need (fA w == 0 && fB w == 0) (.calli (fD w) (fMinor w))
  | 0x11 => need (fA w == 0 && !w.getLsbD 12) (.srd (fD w) (w.extractLsb' 0 12))
  | 0x12 => need (fD w == 0 && !w.getLsbD 12) (.swr (fA w) (w.extractLsb' 0 12))
  | 0x13 => .ok (.sldB (fD w) (fA w) (fImm13 w))
  | 0x14 => .ok (.sldH (fD w) (fA w) (fImm13 w))
  | 0x15 => .ok (.sldW (fD w) (fA w) (fImm13 w))
  | 0x16 => .ok (.sldD (fD w) (fA w) (fImm13 w))
  | 0x17 => .ok (.sstB (fD w) (fA w) (fImm13 w))
  | 0x18 => .ok (.sstH (fD w) (fA w) (fImm13 w))
  | 0x19 => .ok (.sstW (fD w) (fA w) (fImm13 w))
  | 0x1A => .ok (.sstD (fD w) (fA w) (fImm13 w))
  | 0x1B => need (fCond w == 0) (.split (fSbA w) (fOff15 w))
  | 0x1C => .ok (.evbind (fCond w) (fSbA w) (fOff15 w))
  | 0x1D => need (fB w == 0 && fMinor w == 0) (.waitany (fD w) (fA w))
  | 0x1E => decodePar w
  | 0x1F => decodeEvt w
  | 0x20 => decodeMsys w
  | 0x21 => .ok (.satom (fD w) (fA w) (fB w) (fOp w) (fLow3 w))
  | 0x22 => .ok (.satomAcq (fD w) (fA w) (fB w) (fOp w) (fLow3 w))
  | 0x23 => .ok (.satomRel (fD w) (fA w) (fB w) (fOp w) (fLow3 w))
  | 0x24 => .ok (.satomAcqrel (fD w) (fA w) (fB w) (fOp w) (fLow3 w))
  | 0x25 => decodeStream w
  | 0x26 => need (fB w == 0) (if w.getLsbD 6 then .mmaP (fD w) (fA w) (w.extractLsb' 0 6)
      else .mma (fD w) (fA w) (w.extractLsb' 0 6))
  | 0x27 => need (fD w == 0 && fA w == 0 && fB w == 0 && !w.getLsbD 6) (.mzero (w.extractLsb' 0 6))
  | 0x28 => decodeBank w
  | 0x29 => decodeColl w
  | 0x2A => decodeSys w
  | _ => .error .major

/-- The VFUN group: field b is the selector (R93). -/
def decodeVfun (m : Option ModWord) (w : BitVec 32) : Except DecodeErr Instr :=
  match (vB w).toNat with
  | 0 => .ok (.vrcp m (vK w) (vD w) (vA w))
  | 1 => .ok (.vrsq m (vK w) (vD w) (vA w))
  | 2 => .ok (.vsqrt m (vK w) (vD w) (vA w))
  | 3 => .ok (.vfract m (vK w) (vD w) (vA w))
  | 4 => .ok (.vfloor m (vK w) (vD w) (vA w))
  | 5 => .ok (.vrrt m (vK w) (vD w) (vA w))
  | 6 => .ok (.vsint m (vK w) (vD w) (vA w))
  | 7 => .ok (.vcost m (vK w) (vD w) (vA w))
  | 8 => .ok (.vexp2 m (vK w) (vD w) (vA w))
  | 9 => .ok (.vlog2 m (vK w) (vD w) (vA w))
  | _ => .error .minor

/-- The GRADE group: field b is the selector (R93). -/
def decodeGrade (w : BitVec 32) : Except DecodeErr Instr :=
  match (w.extractLsb' 2 6).toNat with
  | 0 => .ok (.grtag (vK w) (vD w) (vA w) (w.extractLsb' 0 2))
  | 4 => if w.extractLsb' 0 2 = 0 then need (!vK w && vD w == 0) (.grchk (vA w)) else .error .minor
  | 8 => .ok (.grdil (vK w) (vD w) (vA w) (w.extractLsb' 0 2))
  | 12 => need (!vK w && vD w == 0 && vA w == 0) (.grlim (w.extractLsb' 0 2))
  | _ => .error .minor

/-- The vector words outside the memory group that accept a modifier word (R92, R93). -/
def decodeMod (m : Option ModWord) (w : BitVec 32) : Except DecodeErr Instr :=
  match fMajor w with
  | 0x00 => .ok (.vadd m (vK w) (vD w) (vA w) (vB w))
  | 0x01 => .ok (.vsub m (vK w) (vD w) (vA w) (vB w))
  | 0x02 => .ok (.vmul m (vK w) (vD w) (vA w) (vB w))
  | 0x03 => .ok (.vmulhI32 m (vK w) (vD w) (vA w) (vB w))
  | 0x04 => .ok (.vmulhZ32 m (vK w) (vD w) (vA w) (vB w))
  | 0x05 => .ok (.vmad m (vK w) (vD w) (vA w) (vB w))
  | 0x06 => .ok (.vminI32 m (vK w) (vD w) (vA w) (vB w))
  | 0x07 => .ok (.vminZ32 m (vK w) (vD w) (vA w) (vB w))
  | 0x08 => .ok (.vmaxI32 m (vK w) (vD w) (vA w) (vB w))
  | 0x09 => .ok (.vmaxZ32 m (vK w) (vD w) (vA w) (vB w))
  | 0x0A => .ok (.vand m (vK w) (vD w) (vA w) (vB w))
  | 0x0B => .ok (.vor m (vK w) (vD w) (vA w) (vB w))
  | 0x0C => .ok (.vxor m (vK w) (vD w) (vA w) (vB w))
  | 0x0D => .ok (.vshl m (vK w) (vD w) (vA w) (vB w))
  | 0x0E => .ok (.vshr m (vK w) (vD w) (vA w) (vB w))
  | 0x0F => .ok (.vsra m (vK w) (vD w) (vA w) (vB w))
  | 0x10 => .ok (.vshrr m (vK w) (vD w) (vA w) (vB w))
  | 0x11 => .ok (.vsel m (vK w) (vD w) (vA w) (vB w))
  | 0x12 => need (!vK w) (.vcmpI32 m (w.extractLsb' 20 3) (w.extractLsb' 16 4) (vA w) (vB w))
  | 0x13 => need (!vK w) (.vcmpZ32 m (w.extractLsb' 20 3) (w.extractLsb' 16 4) (vA w) (vB w))
  | 0x14 => .ok (.vadd2I16 m (vK w) (vD w) (vA w) (vB w))
  | 0x15 => .ok (.vsub2I16 m (vK w) (vD w) (vA w) (vB w))
  | 0x16 => .ok (.vmac2I16 m (vK w) (vD w) (vA w) (vB w))
  | 0x17 => .ok (.vaddVi m (vK w) (vD w) (vA w) (vB w))
  | 0x18 => .ok (.vandVi m (vK w) (vD w) (vA w) (vB w))
  | 0x19 => .ok (.vorVi m (vK w) (vD w) (vA w) (vB w))
  | 0x1A => .ok (.vxorVi m (vK w) (vD w) (vA w) (vB w))
  | 0x1B => need (w.extractLsb' 5 3 == 0) (.vshlVi m (vK w) (vD w) (vA w) (w.extractLsb' 0 5))
  | 0x1C => need (w.extractLsb' 5 3 == 0) (.vshrVi m (vK w) (vD w) (vA w) (w.extractLsb' 0 5))
  | 0x1D => need (w.extractLsb' 5 3 == 0) (.vsraVi m (vK w) (vD w) (vA w) (w.extractLsb' 0 5))
  | 0x1E => need (w.extractLsb' 5 3 == 0) (.vshrrVi m (vK w) (vD w) (vA w) (w.extractLsb' 0 5))
  | 0x1F => .ok (.vfadd m (vK w) (vD w) (vA w) (vB w))
  | 0x20 => .ok (.vfsub m (vK w) (vD w) (vA w) (vB w))
  | 0x21 => .ok (.vfmul m (vK w) (vD w) (vA w) (vB w))
  | 0x22 => .ok (.vfma m (vK w) (vD w) (vA w) (vB w))
  | 0x23 => .ok (.vfmin m (vK w) (vD w) (vA w) (vB w))
  | 0x24 => .ok (.vfmax m (vK w) (vD w) (vA w) (vB w))
  | 0x25 => need (!vK w) (.vfcmp m (w.extractLsb' 20 3) (w.extractLsb' 16 4) (vA w) (vB w))
  | 0x26 => decodeVfun m w
  | 0x27 => .ok (.vhadd2Bf16 m (vK w) (vD w) (vA w) (vB w))
  | 0x28 => .ok (.vhadd2F16 m (vK w) (vD w) (vA w) (vB w))
  | 0x29 => .ok (.vhmul2Bf16 m (vK w) (vD w) (vA w) (vB w))
  | 0x2A => .ok (.vhmul2F16 m (vK w) (vD w) (vA w) (vB w))
  | 0x2B => .ok (.vhfma2Bf16 m (vK w) (vD w) (vA w) (vB w))
  | 0x2C => .ok (.vhfma2F16 m (vK w) (vD w) (vA w) (vB w))
  | 0x2D => .ok (.vdot2Bf16 m (vK w) (vD w) (vA w) (vB w))
  | 0x2E => .ok (.vdot2F16 m (vK w) (vD w) (vA w) (vB w))
  | 0x2F => .ok (.vcvt m (vK w) (vD w) (vA w) (w.extractLsb' 4 4) (w.extractLsb' 0 4))
  | 0x30 => .ok (.vslideUp m (vK w) (vD w) (vA w) (w.extractLsb' 7 1) (w.extractLsb' 0 7))
  | 0x31 => .ok (.vslideDn m (vK w) (vD w) (vA w) (w.extractLsb' 7 1) (w.extractLsb' 0 7))
  | 0x35 => .ok (.vred m (vK w) (vD w) (vA w) (w.extractLsb' 4 4) (w.extractLsb' 0 4))
  | _ => .error .major

/-- The vector memory words (R80, R93). -/
def decodeMem (m : Option MemWord) (w : BitVec 32) : Except DecodeErr Instr :=
  if vK w then .error .nonzero else
  match fMajor w with
  | 0x36 => need (vB w == 0) (.vldf m (vD w) (vA w))
  | 0x37 => need (vB w == 0) (.vstf m (vD w) (vA w))
  | 0x38 => .ok (.vld m (vD w) (vA w) (vB w))
  | 0x39 => .ok (.vst m (vD w) (vA w) (vB w))
  | 0x3A => need (w.extractLsb' 1 7 == 0) (.vlds m (vD w) (vA w) (w.extractLsb' 0 1))
  | 0x3B => need (w.extractLsb' 1 7 == 0) (.vsts m (vD w) (vA w) (w.extractLsb' 0 1))
  | 0x3C => .ok (.vatom m (vD w) (vA w) (vB w))
  | _ => .error .major

/-- The vector words that take no second word (R78: none). -/
def decodeBare (w : BitVec 32) : Except DecodeErr Instr :=
  match fMajor w with
  | 0x32 => need (vB w == 0) (.vswapp (vK w) (vD w) (vA w))
  | 0x33 => .ok (.vperm (vK w) (vD w) (vA w) (vB w))
  | 0x34 => .ok (.vbcast (vK w) (vD w) (vA w) (vB w))
  | 0x3D => need (w.extractLsb' 6 2 == 0) (.mrd (vK w) (vD w) (vA w) (w.extractLsb' 0 6))
  | 0x3E => need (!vK w && w.extractLsb' 6 2 == 0) (.mwr (vD w) (vA w) (w.extractLsb' 0 6))
  | 0x3F => decodeGrade w
  | _ => .error .major

/-- A vector major of the memory group (R80). -/
def majorMem (n : Nat) : Bool := decide (0x36 ≤ n ∧ n ≤ 0x3C)

/-- A vector major without a second word (R78). -/
def majorBare (n : Nat) : Bool := decide (0x32 ≤ n ∧ n ≤ 0x34) || decide (0x3D ≤ n)

/-- A vector word and its second word, if it has one. -/
def decodeVector (w : BitVec 32) (x : Option (BitVec 32)) : Except DecodeErr Instr :=
  if majorBare (fMajor w) then
    match x with
    | none => decodeBare w
    | some _ => .error .noSecond
  else if majorMem (fMajor w) then decodeMem (x.map memOf) w
  else match x with
    | none => decodeMod none w
    | some y => match modOf y with
      | some m => decodeMod (some m) w
      | none => .error (.ill .second)

/-- The instruction with its well-formedness checks (R94). -/
def checked (r : Except DecodeErr Instr) : Except DecodeErr Instr :=
  match r with
  | .error e => .error e
  | .ok i => match i.check with
    | none => .ok i
    | some e => .error (.ill e)

/-- The bits of an instruction in memory: a parcel, a word, or a word and a second word (R73); a Compass word
(R392). -/
inductive Code where
  | parcel (p : BitVec 16)
  | word (w : BitVec 32)
  | pair (w x : BitVec 32)
  | compass (w : BitVec 32)
  deriving DecidableEq, Repr

/-- A dictionary parcel (R73). -/
def isDict (p : BitVec 16) : Bool := p.extractLsb' 10 6 == 0b111110#6

/-- The length in bytes that the first parcel gives (R43, R73). -/
def parcelLen (p : BitVec 16) : Nat :=
  if isDict p then 2 else if p.getLsbD 15 then 4 else if p.getLsbD 8 then 8 else 4

/-- Decode of a word and its second word (R94). -/
def decodeWord (w : BitVec 32) (x : Option (BitVec 32)) : Except DecodeErr Instr :=
  checked (if w.getLsbD 31 then decodeScalar w else decodeVector w x)

/-- Decode of a dictionary entry, which is no dictionary parcel and has a second word exactly where its word asks
for one (R85). -/
def decodeEntry (e : Word) : Except DecodeErr Instr :=
  let w : BitVec 32 := e.extractLsb' 32 32
  let x : BitVec 32 := e.extractLsb' 0 32
  if isDict (w.extractLsb' 16 16) then .error .major
  else if !w.getLsbD 31 && w.getLsbD 24 then decodeWord w (some x)
  else if x = 0 then decodeWord w none else .error .noSecond


/-- The Compass words: operation [31:26], then the fields of R392. -/
def decodeCompassRaw (w : BitVec 32) : Except DecodeErr Instr :=
  let d : BitVec 4 := w.extractLsb' 22 4
  let a : BitVec 4 := w.extractLsb' 18 4
  let b : BitVec 4 := w.extractLsb' 14 4
  let i : BitVec 14 := w.extractLsb' 0 14
  match (w.extractLsb' 26 6).toNat with
  | 0 => need (d == 0 && a == 0 && b == 0 && i == 0) (.cNop)
  | 1 => need (a == 0 && b == 0) (.cLdi d i)
  | 2 => need (a == 0 && b == 0) (.cLui d i)
  | 3 => need (i == 0) (.cAdd d a b)
  | 4 => need (i == 0) (.cSub d a b)
  | 5 => need (i == 0) (.cMul d a b)
  | 6 => need (i == 0) (.cAnd d a b)
  | 7 => need (i == 0) (.cOr d a b)
  | 8 => need (i == 0) (.cXor d a b)
  | 9 => need (i == 0) (.cShl d a b)
  | 10 => need (i == 0) (.cShr d a b)
  | 11 => need (i == 0) (.cMin d a b)
  | 12 => need (i == 0) (.cMax d a b)
  | 13 => need (i == 0) (.cSlt d a b)
  | 14 => need (b == 0) (.cAddi d a i)
  | 15 => need (i == 0) (.cSel d a b)
  | 16 => need (d == 0) (.cBeq a b i)
  | 17 => need (d == 0) (.cBne a b i)
  | 18 => need (d == 0) (.cBlt a b i)
  | 19 => need (d == 0) (.cBge a b i)
  | 20 => need (d == 0 && a == 0 && b == 0) (.cJmp i)
  | 21 => need (d == 0 && a == 0 && b == 0) (.cLoopn (w.extractLsb' 8 6) (w.extractLsb' 0 8))
  | 22 => need (b == 0) (.cLdq d a i)
  | 23 => need (a == 0 && b == 0) (.cLde d i)
  | 24 => need (a == 0 && b == 0) (.cLds d i)
  | 25 => need (d == 0 && b == 0) (.cSts a i)
  | 26 => need (d == 0 && b == 0 && i == 0) (.cRetq a)
  | 27 => need (d == 0 && a == 0 && b == 0 && i == 0) (.cRetn)
  | _ => .error .major

/-- Decode of a Compass word (R392). -/
def decodeCompass (w : BitVec 32) : Except DecodeErr Instr := checked (decodeCompassRaw w)

/-- Decode of the bits of an instruction. -/
def decode : Code → Except DecodeErr Instr
  | .parcel p => if isDict p then .ok (.dictionaryParcel (p.extractLsb' 0 10)) else .error .short
  | .word w => decodeWord w none
  | .pair w x => decodeWord w (some x)
  | .compass w => decodeCompass w

/-! ### Bytes (R73) -/

/-- The two bytes of a parcel, least significant first. -/
def parcelBytes (p : BitVec 16) : List Byte := [p.extractLsb' 0 8, p.extractLsb' 8 8]

/-- A parcel from two bytes. -/
def parcelOf (b c : Byte) : BitVec 16 := c ++ b

/-- The bytes of a wave word: bits [31:16] first. -/
def wordBytes (w : BitVec 32) : List Byte := parcelBytes (w.extractLsb' 16 16) ++ parcelBytes (w.extractLsb' 0 16)

/-- A wave word from its two parcels. -/
def wordOf (p q : BitVec 16) : BitVec 32 := p ++ q

/-- The bytes of an instruction in memory; a Compass word is a little-endian word of the policy file. -/
def Code.bytes : Code → List Byte
  | .parcel p => parcelBytes p
  | .word w => wordBytes w
  | .pair w x => wordBytes w ++ wordBytes x
  | .compass w => [w.extractLsb' 0 8, w.extractLsb' 8 8, w.extractLsb' 16 8, w.extractLsb' 24 8]

/-- The instruction at the head of a byte list and its length (R43, R73). -/
def decodeBytes : List Byte → Except DecodeErr (Instr × Nat)
  | b0 :: b1 :: rest =>
    let p := parcelOf b0 b1
    if isDict p then .ok (.dictionaryParcel (p.extractLsb' 0 10), 2)
    else match rest with
      | b2 :: b3 :: rest2 =>
        let w := wordOf p (parcelOf b2 b3)
        if parcelLen p = 8 then
          match rest2 with
          | b4 :: b5 :: b6 :: b7 :: _ =>
            (decodeWord w (some (wordOf (parcelOf b4 b5) (parcelOf b6 b7)))).map (fun i => (i, 8))
          | _ => .error .short
        else (decodeWord w none).map (fun i => (i, 4))
      | _ => .error .short
  | _ => .error .short

/-! ### The encoder -/

/-- SR: 1, major, sd, sa, sb, minor (R74). -/
def srWord (maj : BitVec 6) (d a b : SReg) (minor : BitVec 7) : BitVec 32 := 1#1 ++ maj ++ d ++ a ++ b ++ minor

/-- SI: 1, major, sd, sa, imm13 (R74). -/
def siWord (maj : BitVec 6) (d a : SReg) (i : BitVec 13) : BitVec 32 := 1#1 ++ maj ++ d ++ a ++ i

/-- SX: 1, major, sd, imm19 (R74). -/
def sxWord (maj : BitVec 6) (d : SReg) (i : BitVec 19) : BitVec 32 := 1#1 ++ maj ++ d ++ i

/-- SB: 1, major, cond, sa, offset (R74). -/
def sbWord (maj : BitVec 6) (c : BitVec 4) (a : SReg) (o : BitVec 15) : BitVec 32 := 1#1 ++ maj ++ c ++ a ++ o

/-- SL: 1, major, offset (R74). -/
def slWord (maj : BitVec 6) (o : BitVec 25) : BitVec 32 := 1#1 ++ maj ++ o

/-- VR and VI: 0, major, M, K, vd, a, b (R75). -/
def vWord (maj : BitVec 6) (m k : Bool) (d : VReg) (a b : BitVec 8) : BitVec 32 :=
  0#1 ++ maj ++ BitVec.ofBool m ++ BitVec.ofBool k ++ d ++ a ++ b

/-- A Compass word: operation, d, a, b, 14 bits (R392). -/
def cWord (op : BitVec 6) (d a b : BitVec 4) (i : BitVec 14) : BitVec 32 := op ++ d ++ a ++ b ++ i

/-- A modifier word (R78). -/
def ModWord.bits (m : ModWord) : BitVec 32 :=
  m.sat ++ BitVec.ofBool m.nega ++ BitVec.ofBool m.negb ++ BitVec.ofBool m.absa ++ BitVec.ofBool m.absb
    ++ m.scale ++ m.rnd ++ m.srcc ++ 0#10

/-- A memory word (R80). -/
def MemWord.bits (m : MemWord) : BitVec 32 := m.disp ++ m.scope ++ m.ord ++ m.hint ++ m.ty ++ m.atop

/-- A vector word with its modifier word. -/
def encMod (maj : BitVec 6) (m : Option ModWord) (k : Bool) (d : VReg) (a b : BitVec 8) : Code :=
  match m with
  | none => .word (vWord maj false k d a b)
  | some x => .pair (vWord maj true k d a b) x.bits

/-- A vector word with its memory word. -/
def encMem (maj : BitVec 6) (m : Option MemWord) (d : VReg) (a b : BitVec 8) : Code :=
  match m with
  | none => .word (vWord maj false false d a b)
  | some x => .pair (vWord maj true false d a b) x.bits

/-- The bits of an instruction; none for the steps of the other agents, which have no encoding. -/
def encode : Instr → Option Code
  | .sadd d a b => some (.word (srWord 0x00 d a b 0x00))
  | .ssub d a b => some (.word (srWord 0x00 d a b 0x01))
  | .smul d a b => some (.word (srWord 0x00 d a b 0x02))
  | .smulh d a b => some (.word (srWord 0x00 d a b 0x03))
  | .smulhz d a b => some (.word (srWord 0x00 d a b 0x04))
  | .sdiv d a b => some (.word (srWord 0x00 d a b 0x05))
  | .sdivz d a b => some (.word (srWord 0x00 d a b 0x06))
  | .srem d a b => some (.word (srWord 0x00 d a b 0x07))
  | .sremz d a b => some (.word (srWord 0x00 d a b 0x08))
  | .sand d a b => some (.word (srWord 0x00 d a b 0x09))
  | .sor d a b => some (.word (srWord 0x00 d a b 0x0A))
  | .sxor d a b => some (.word (srWord 0x00 d a b 0x0B))
  | .sshl d a b => some (.word (srWord 0x00 d a b 0x0C))
  | .sshr d a b => some (.word (srWord 0x00 d a b 0x0D))
  | .ssra d a b => some (.word (srWord 0x00 d a b 0x0E))
  | .srol d a b => some (.word (srWord 0x00 d a b 0x0F))
  | .smin d a b => some (.word (srWord 0x00 d a b 0x10))
  | .smax d a b => some (.word (srWord 0x00 d a b 0x11))
  | .sminz d a b => some (.word (srWord 0x00 d a b 0x12))
  | .smaxz d a b => some (.word (srWord 0x00 d a b 0x13))
  | .sclz d a => some (.word (srWord 0x00 d a 0 0x14))
  | .spopc d a => some (.word (srWord 0x00 d a 0 0x15))
  | .sbfx d a b => some (.word (srWord 0x00 d a b 0x16))
  | .sbfi d a b => some (.word (srWord 0x00 d a b 0x17))
  | .ssel d a b => some (.word (srWord 0x00 d a b 0x18))
  | .scmp a b => some (.word (srWord 0x00 0 a b 0x19))
  | .jmpr a => some (.word (srWord 0x00 0 a 0 0x1A))
  | .ret a => some (.word (srWord 0x00 0 a 0 0x1B))
  | .maskget d => some (.word (srWord 0x00 d 0 0 0x1C))
  | .maskset a => some (.word (srWord 0x00 0 a 0 0x1D))
  | .mand a => some (.word (srWord 0x00 0 a 0 0x1E))
  | .mandn a => some (.word (srWord 0x00 0 a 0 0x1F))
  | .mor a => some (.word (srWord 0x00 0 a 0 0x20))
  | .mpopc d => some (.word (srWord 0x00 d 0 0 0x21))
  | .saddi d a i => some (.word (siWord 0x01 d a i))
  | .sandi d a i => some (.word (siWord 0x03 d a i))
  | .sori d a i => some (.word (siWord 0x04 d a i))
  | .sxori d a i => some (.word (siWord 0x05 d a i))
  | .sldB d a i => some (.word (siWord 0x13 d a i))
  | .sldH d a i => some (.word (siWord 0x14 d a i))
  | .sldW d a i => some (.word (siWord 0x15 d a i))
  | .sldD d a i => some (.word (siWord 0x16 d a i))
  | .sstB d a i => some (.word (siWord 0x17 d a i))
  | .sstH d a i => some (.word (siWord 0x18 d a i))
  | .sstW d a i => some (.word (siWord 0x19 d a i))
  | .sstD d a i => some (.word (siWord 0x1A d a i))
  | .scmpi a i => some (.word (siWord 0x02 0 a i))
  | .sshli d a i => some (.word (siWord 0x06 d a (0#7 ++ i)))
  | .sshri d a i => some (.word (siWord 0x07 d a (0#7 ++ i)))
  | .ssrai d a i => some (.word (siWord 0x08 d a (0#7 ++ i)))
  | .slui d i => some (.word (sxWord 0x09 d i))
  | .slea d a b h => some (.word (srWord 0x0A d a b (0#4 ++ h)))
  | .br o => some (.word (slWord 0x0B o))
  | .call o => some (.word (slWord 0x0C o))
  | .bc c o => some (.word (sbWord 0x0D c 0 o))
  | .bmz o => some (.word (sbWord 0x0E 0 0 o))
  | .bmnz o => some (.word (sbWord 0x0F 0 0 o))
  | .calli d v => some (.word (srWord 0x10 d 0 0 v))
  | .srd d n => some (.word (siWord 0x11 d 0 (0#1 ++ n)))
  | .swr a n => some (.word (siWord 0x12 0 a (0#1 ++ n)))
  | .split a o => some (.word (sbWord 0x1B 0 a o))
  | .evbind k a o => some (.word (sbWord 0x1C k a o))
  | .waitany d a => some (.word (srWord 0x1D d a 0 0))
  | .join a => some (.word (srWord 0x1E 0 a 0 0x00))
  | .yield => some (.word (srWord 0x1E 0 0 0 0x01))
  | .endw => some (.word (srWord 0x1E 0 0 0 0x02))
  | .launch a => some (.word (srWord 0x1E 0 a 0 0x03))
  | .carve a b => some (.word (srWord 0x1E 0 a b 0x04))
  | .bar => some (.word (srWord 0x1F 0 0 0 (0#3 ++ 0#4)))
  | .nbarArv a k => some (.word (srWord 0x1F 0 a 0 (1#3 ++ k)))
  | .nbarWt k => some (.word (srWord 0x1F 0 0 0 (2#3 ++ k)))
  | .mbxSend a k => some (.word (srWord 0x1F 0 a 0 (3#3 ++ k)))
  | .mbxSendRel a k => some (.word (srWord 0x1F 0 a 0 (4#3 ++ k)))
  | .evmask d a => some (.word (srWord 0x1F d a 0 (5#3 ++ 0#4)))
  | .evpoll d => some (.word (srWord 0x1F d 0 0 (6#3 ++ 0#4)))
  | .evclr a => some (.word (srWord 0x1F 0 a 0 (7#3 ++ 0#4)))
  | .fence s => some (.word (srWord 0x20 0 0 0 (0#4 ++ s)))
  | .fenceAcq s => some (.word (srWord 0x20 0 0 0 (1#4 ++ s)))
  | .fenceRel s => some (.word (srWord 0x20 0 0 0 (2#4 ++ s)))
  | .racq a s => some (.word (srWord 0x20 0 a 0 (3#4 ++ s)))
  | .rfence => some (.word (srWord 0x20 0 0 0 (4#4 ++ 0#3)))
  | .pref a => some (.word (srWord 0x20 0 a 0 (5#4 ++ 0#3)))
  | .cflush a b => some (.word (srWord 0x20 0 a b (6#4 ++ 0#3)))
  | .cinv a b => some (.word (srWord 0x20 0 a b (7#4 ++ 0#3)))
  | .mscpin d a b => some (.word (srWord 0x20 d a b (8#4 ++ 0#3)))
  | .mscunpin a => some (.word (srWord 0x20 0 a 0 (9#4 ++ 0#3)))
  | .satom d a b o s => some (.word (srWord 0x21 d a b (o ++ s)))
  | .satomAcq d a b o s => some (.word (srWord 0x22 d a b (o ++ s)))
  | .satomRel d a b o s => some (.word (srWord 0x23 d a b (o ++ s)))
  | .satomAcqrel d a b o s => some (.word (srWord 0x24 d a b (o ++ s)))
  | .xcopy d a r => some (.word (srWord 0x25 d a 0 (0#4 ++ (BitVec.ofBool r ++ 0#2))))
  | .xgath d a r => some (.word (srWord 0x25 d a 0 (1#4 ++ (BitVec.ofBool r ++ 0#2))))
  | .xred d a r => some (.word (srWord 0x25 d a 0 (2#4 ++ (BitVec.ofBool r ++ 0#2))))
  | .xfill d a r => some (.word (srWord 0x25 d a 0 (3#4 ++ (BitVec.ofBool r ++ 0#2))))
  | .bclose d c => some (.word (srWord 0x25 d 0 0 (4#4 ++ (0#1 ++ c))))
  | .bwait a c => some (.word (srWord 0x25 0 a 0 (5#4 ++ (0#1 ++ c))))
  | .cbinit a k => some (.word (srWord 0x25 0 a 0 (6#4 ++ (k))))
  | .cbacq d k => some (.word (srWord 0x25 d 0 0 (7#4 ++ (k))))
  | .cbcommit a k => some (.word (srWord 0x25 0 a 0 (8#4 ++ (k))))
  | .cbwait a k => some (.word (srWord 0x25 0 a 0 (9#4 ++ (k))))
  | .cbrel a k => some (.word (srWord 0x25 0 a 0 (10#4 ++ (k))))
  | .mma f a k => some (.word (srWord 0x26 f a 0 (0#1 ++ k)))
  | .mmaP f a k => some (.word (srWord 0x26 f a 0 (1#1 ++ k)))
  | .mzero k => some (.word (srWord 0x27 0 0 0 (0#1 ++ k)))
  | .nbzero d a r => some (.word (srWord 0x28 d a 0 (0#4 ++ (BitVec.ofBool r ++ 0#2))))
  | .nbcopy d a r => some (.word (srWord 0x28 d a 0 (1#4 ++ (BitVec.ofBool r ++ 0#2))))
  | .nbaxpy d a r => some (.word (srWord 0x28 d a 0 (2#4 ++ (BitVec.ofBool r ++ 0#2))))
  | .nbdot d a r => some (.word (srWord 0x28 d a 0 (3#4 ++ (BitVec.ofBool r ++ 0#2))))
  | .nbscal d a r => some (.word (srWord 0x28 d a 0 (4#4 ++ (BitVec.ofBool r ++ 0#2))))
  | .bfence => some (.word (srWord 0x28 0 0 0 (5#4 ++ (0#3))))
  | .xar d a r => some (.word (srWord 0x29 d a 0 (0#4 ++ (BitVec.ofBool r ++ 0#2))))
  | .xag d a r => some (.word (srWord 0x29 d a 0 (1#4 ++ (BitVec.ofBool r ++ 0#2))))
  | .xrs d a r => some (.word (srWord 0x29 d a 0 (2#4 ++ (BitVec.ofBool r ++ 0#2))))
  | .xbcst d a r => some (.word (srWord 0x29 d a 0 (3#4 ++ (BitVec.ofBool r ++ 0#2))))
  | .trap c => some (.word (siWord 0x2A 0 0 (0#3 ++ c)))
  | .sysc c => some (.word (siWord 0x2A 0 0 (1#3 ++ c)))
  | .brk c => some (.word (siWord 0x2A 0 0 (2#3 ++ c)))
  | .tfence => some (.word (siWord 0x2A 0 0 (3#3 ++ 0#10)))
  | .tret => some (.word (siWord 0x2A 0 0 (4#3 ++ 0#10)))
  | .causeclr b => some (.word (siWord 0x2A 0 0 (5#3 ++ 0#4 ++ b)))
  | .dictionaryParcel i => some (.parcel (0b111110#6 ++ i))
  | .vadd m k d a b => some (encMod 0x00 m k d a b)
  | .vsub m k d a b => some (encMod 0x01 m k d a b)
  | .vmul m k d a b => some (encMod 0x02 m k d a b)
  | .vmulhI32 m k d a b => some (encMod 0x03 m k d a b)
  | .vmulhZ32 m k d a b => some (encMod 0x04 m k d a b)
  | .vmad m k d a b => some (encMod 0x05 m k d a b)
  | .vminI32 m k d a b => some (encMod 0x06 m k d a b)
  | .vminZ32 m k d a b => some (encMod 0x07 m k d a b)
  | .vmaxI32 m k d a b => some (encMod 0x08 m k d a b)
  | .vmaxZ32 m k d a b => some (encMod 0x09 m k d a b)
  | .vand m k d a b => some (encMod 0x0A m k d a b)
  | .vor m k d a b => some (encMod 0x0B m k d a b)
  | .vxor m k d a b => some (encMod 0x0C m k d a b)
  | .vshl m k d a b => some (encMod 0x0D m k d a b)
  | .vshr m k d a b => some (encMod 0x0E m k d a b)
  | .vsra m k d a b => some (encMod 0x0F m k d a b)
  | .vshrr m k d a b => some (encMod 0x10 m k d a b)
  | .vsel m k d a b => some (encMod 0x11 m k d a b)
  | .vcmpI32 m c q a b => some (encMod 0x12 m false (c ++ q) a b)
  | .vcmpZ32 m c q a b => some (encMod 0x13 m false (c ++ q) a b)
  | .vadd2I16 m k d a b => some (encMod 0x14 m k d a b)
  | .vsub2I16 m k d a b => some (encMod 0x15 m k d a b)
  | .vmac2I16 m k d a b => some (encMod 0x16 m k d a b)
  | .vaddVi m k d a i => some (encMod 0x17 m k d a i)
  | .vandVi m k d a i => some (encMod 0x18 m k d a i)
  | .vorVi m k d a i => some (encMod 0x19 m k d a i)
  | .vxorVi m k d a i => some (encMod 0x1A m k d a i)
  | .vshlVi m k d a i => some (encMod 0x1B m k d a (0#3 ++ i))
  | .vshrVi m k d a i => some (encMod 0x1C m k d a (0#3 ++ i))
  | .vsraVi m k d a i => some (encMod 0x1D m k d a (0#3 ++ i))
  | .vshrrVi m k d a i => some (encMod 0x1E m k d a (0#3 ++ i))
  | .vfadd m k d a b => some (encMod 0x1F m k d a b)
  | .vfsub m k d a b => some (encMod 0x20 m k d a b)
  | .vfmul m k d a b => some (encMod 0x21 m k d a b)
  | .vfma m k d a b => some (encMod 0x22 m k d a b)
  | .vfmin m k d a b => some (encMod 0x23 m k d a b)
  | .vfmax m k d a b => some (encMod 0x24 m k d a b)
  | .vfcmp m c q a b => some (encMod 0x25 m false (c ++ q) a b)
  | .vrcp m k d a => some (encMod 0x26 m k d a 0x00)
  | .vrsq m k d a => some (encMod 0x26 m k d a 0x01)
  | .vsqrt m k d a => some (encMod 0x26 m k d a 0x02)
  | .vfract m k d a => some (encMod 0x26 m k d a 0x03)
  | .vfloor m k d a => some (encMod 0x26 m k d a 0x04)
  | .vrrt m k d a => some (encMod 0x26 m k d a 0x05)
  | .vsint m k d a => some (encMod 0x26 m k d a 0x06)
  | .vcost m k d a => some (encMod 0x26 m k d a 0x07)
  | .vexp2 m k d a => some (encMod 0x26 m k d a 0x08)
  | .vlog2 m k d a => some (encMod 0x26 m k d a 0x09)
  | .vhadd2Bf16 m k d a b => some (encMod 0x27 m k d a b)
  | .vhadd2F16 m k d a b => some (encMod 0x28 m k d a b)
  | .vhmul2Bf16 m k d a b => some (encMod 0x29 m k d a b)
  | .vhmul2F16 m k d a b => some (encMod 0x2A m k d a b)
  | .vhfma2Bf16 m k d a b => some (encMod 0x2B m k d a b)
  | .vhfma2F16 m k d a b => some (encMod 0x2C m k d a b)
  | .vdot2Bf16 m k d a b => some (encMod 0x2D m k d a b)
  | .vdot2F16 m k d a b => some (encMod 0x2E m k d a b)
  | .vcvt m k d a e s => some (encMod 0x2F m k d a (e ++ s))
  | .vslideUp m k d a u n => some (encMod 0x30 m k d a (u ++ n))
  | .vslideDn m k d a u n => some (encMod 0x31 m k d a (u ++ n))
  | .vswapp k d a => some (.word (vWord 0x32 false k d a 0))
  | .vperm k d a b => some (.word (vWord 0x33 false k d a b))
  | .vbcast k d a b => some (.word (vWord 0x34 false k d a b))
  | .vred m k d a o f => some (encMod 0x35 m k d a (o ++ f))
  | .vldf m d a => some (encMem 0x36 m d a 0)
  | .vstf m d a => some (encMem 0x37 m d a 0)
  | .vld m d a n => some (encMem 0x38 m d a n)
  | .vst m d a n => some (encMem 0x39 m d a n)
  | .vlds m d a w => some (encMem 0x3A m d a (0#7 ++ w))
  | .vsts m d a w => some (encMem 0x3B m d a (0#7 ++ w))
  | .vatom m d a n => some (encMem 0x3C m d a n)
  | .mrd k d a t => some (.word (vWord 0x3D false k d a (0#2 ++ t)))
  | .mwr d a t => some (.word (vWord 0x3E false false d a (0#2 ++ t)))
  | .grtag k d a g => some (.word (vWord 0x3F false k d a (0#6 ++ g)))
  | .grchk a => some (.word (vWord 0x3F false false 0 a 0x10))
  | .grdil k d a g => some (.word (vWord 0x3F false k d a (8#6 ++ g)))
  | .grlim g => some (.word (vWord 0x3F false false 0 0 (12#6 ++ g)))
  | .cNop => some (.compass (cWord 0 0 0 0 0))
  | .cLdi d i => some (.compass (cWord 1 d 0 0 i))
  | .cLui d i => some (.compass (cWord 2 d 0 0 i))
  | .cAdd d a b => some (.compass (cWord 3 d a b 0))
  | .cSub d a b => some (.compass (cWord 4 d a b 0))
  | .cMul d a b => some (.compass (cWord 5 d a b 0))
  | .cAnd d a b => some (.compass (cWord 6 d a b 0))
  | .cOr d a b => some (.compass (cWord 7 d a b 0))
  | .cXor d a b => some (.compass (cWord 8 d a b 0))
  | .cShl d a b => some (.compass (cWord 9 d a b 0))
  | .cShr d a b => some (.compass (cWord 10 d a b 0))
  | .cMin d a b => some (.compass (cWord 11 d a b 0))
  | .cMax d a b => some (.compass (cWord 12 d a b 0))
  | .cSlt d a b => some (.compass (cWord 13 d a b 0))
  | .cAddi d a i => some (.compass (cWord 14 d a 0 i))
  | .cSel d a b => some (.compass (cWord 15 d a b 0))
  | .cBeq a b k => some (.compass (cWord 16 0 a b k))
  | .cBne a b k => some (.compass (cWord 17 0 a b k))
  | .cBlt a b k => some (.compass (cWord 18 0 a b k))
  | .cBge a b k => some (.compass (cWord 19 0 a b k))
  | .cJmp k => some (.compass (cWord 20 0 0 0 k))
  | .cLoopn n l => some (.compass (cWord 21 0 0 0 (n ++ l)))
  | .cLdq d a f => some (.compass (cWord 22 d a 0 f))
  | .cLde d f => some (.compass (cWord 23 d 0 0 f))
  | .cLds d k => some (.compass (cWord 24 d 0 0 k))
  | .cSts a k => some (.compass (cWord 25 0 a 0 k))
  | .cRetq a => some (.compass (cWord 26 0 a 0 0))
  | .cRetn => some (.compass (cWord 27 0 0 0 0))
  | _ => none

/-- The bytes of an instruction of the host's table: nbits bits of w, bit 0 the least significant bit of the
first word; a 32-bit word is laid out as R73 gives, and the bits above nbits are zero. -/
def tableBytes (nbits w : Nat) : List Byte :=
  if nbits ≤ 16 then parcelBytes (BitVec.ofNat 16 w)
  else wordBytes (BitVec.ofNat 32 w) ++ wordBytes (BitVec.ofNat 32 (w / 2 ^ 32))

/-- The instruction that the decoder reads from the bits of a table row: as a wave instruction where the bits are
one, else as a Compass instruction (the two share the 32-bit words, R392). -/
def decodeTableWord (nbits w : Nat) : Option Instr :=
  match decodeBytes (tableBytes nbits w) with
  | .ok (i, _) => some i
  | .error _ => match decodeCompass (BitVec.ofNat 32 w) with
    | .ok i => some i
    | .error _ => none

end Sys2Proof
end

