-- ==== Sys2Proof/Machine/Fetch.lean ====
section
/-! DEFINITION. Fetching parcels (R43) and function headers (R105). -/

namespace Sys2Proof.Machine

/-- The address lies in the module's text of a grid (R43). -/
def Grid.inText (g : Grid) (va : Word) : Bool :=
  decide (g.textBase.toNat ≤ va.toNat ∧ va.toNat < g.textBase.toNat + g.textLen)

/-- Sequence numbers compared serially: m is at or before n (R294). -/
def serialLe (m n : BitVec 16) : Bool := decide ((n - m).toNat < 32768)

/-! ### What happens before a fetch (R43, R235) -/

/-- Two agents share a scope: one instance of it contains both. Operations belong to none (R233). -/
def Spot.shares (a b : Spot) : Nat → Bool
  | 0 => a.wave && b.wave && a.agent == b.agent
  | 1 => a.wave && b.wave && a.team == b.team
  | 2 => a.wave && b.wave && a.core == b.core
  | 3 => a.wave && b.wave && a.nb == b.nb
  | 4 => a.wave && b.wave && a.die == b.die
  | 5 => a.wave && b.wave
  | _ => (a.wave || a.agent == 0) && (b.wave || b.agent == 0)

/-- An acquire, of an agent at a scope, for which releases are sought. -/
structure Want where
  by'   : Spot
  scope : Nat
  key   : Sync
  deriving DecidableEq, Repr

/-- What a walk back through the past has found: the agents of which, and the grids of whose waves on a die, every earlier
operation happens before the fetch, and the acquires that do. -/
structure Trail where
  agents : List Nat
  grids  : List (Nat × Nat)
  wants  : List Want
  deriving DecidableEq, Repr

/-- An agent's earlier operations happen before the fetch. -/
def Trail.knows (t : Trail) (a : Spot) : Bool :=
  t.agents.contains a.agent || (a.wave && t.grids.contains (a.grid, a.die))

/-- The bytes of a range that a store wrote. -/
def Written.over (x : Written) (pa n : Nat) : Mem := x.bytes.filter (fun c => decide (pa ≤ c.1 ∧ c.1 < pa + n))

/-- A store wrote the value that an acquire read, or before an atomic whose value that is (R235). -/
def Want.from' (q : Want) (x : Written) : Bool :=
  match q.key with
  | .read pa bs => !(x.over pa bs.length).isEmpty && (x.over pa bs.length).all (fun c => bs[c.1 - pa]? == some c.2)
  | .chain pa n => !(x.over pa n).isEmpty
  | _ => false

/-- A release at a scope synchronises with an acquire: both scopes are shared. One of an owner of the line counts as performed
at the acquire's own scope (R235, R236). -/
def Want.meets (q : Want) (a : Spot) (scope : Nat) (paired : Bool) : Bool :=
  (paired && a.shares q.by' scope && a.shares q.by' q.scope)
    || (match q.key with
        | .owner core => a.wave && a.core == core && a.shares q.by' q.scope
        | _ => false)

/-- The acquire after a store on the way back: a value that it read is found, and of one that an atomic wrote the releases
before are sought on. The newest store that wrote such bytes is taken to be the one read (log 64). -/
def Want.after (q : Want) (x : Written) : List Want :=
  match q.key with
  | .read pa bs => if !q.from' x then [q] else if x.rmw then [{ q with key := .chain pa bs.length }] else []
  | _ => [q]

/-- The completion of an operation is one that an acquire observes (R243, R248, R348). -/
def Want.observes (q : Want) (id wave cls : Nat) (n : BitVec 16) (sd : Option Nat) : Bool :=
  match q.key with
  | .reg w r => w == wave && sd == some r
  | .batch w c m => w == wave && c == cls && serialLe n m
  | .bank w => w == wave && cls == 2
  | .call i => i == id
  | .calls w => w == wave && cls == 4
  | _ => false

/-- An acquire by a completion register observes one completion. -/
def Want.single (q : Want) : Bool :=
  match q.key with
  | .reg _ _ => true
  | _ => false

/-- One more step back. -/
def Trail.back (t : Trail) : Past → Trail
  | .wrote x =>
    let synced := x.rel.any (fun r => t.wants.any (fun q => q.meets x.by' r (q.from' x)))
    { t with
      agents := if synced then x.by'.agent :: t.agents else t.agents
      wants := t.wants.flatMap (fun q => q.after x) }
  | .released a scope key =>
    let synced := (match key with
      | .issue id => t.agents.contains id
      | _ => false) || t.wants.any (fun q => q.meets a scope (key != .none && q.key == key))
    if synced then { t with agents := a.agent :: t.agents } else t
  | .acquired a scope keys =>
    if t.knows a then { t with wants := t.wants ++ keys.map (fun k => { by' := a, scope := scope, key := k }) } else t
  | .completed id wave cls n sd =>
    if t.wants.any (fun q => q.observes id wave cls n sd) then
      { t with
        agents := id :: t.agents
        wants := t.wants.filter (fun q => !(q.single && q.observes id wave cls n sd)) }
    else t
  | .retired g w slot =>
    let heard := t.wants.filter (fun q => q.key == .token w slot && decide (4 ≤ q.scope))
    { t with grids := t.grids ++ heard.map (fun q => (g, q.by'.die)) }

/-- The stores, of a past with the newest first, that happen before a fetch (R235). -/
def writesBefore (t : Trail) : List Past → List Written
  | [] => []
  | p :: ps =>
    let t := t.back p
    match p with
    | .wrote x => if t.knows x.by' then x :: writesBefore t ps else writesBefore t ps
    | _ => writesBefore t ps

/-- A store wrote a byte of the parcel at a physical address. -/
def Past.writesParcel (p : Past) (pa : Nat) : Bool :=
  match p with
  | .wrote x => !(x.over pa 2).isEmpty
  | _ => false

/-- The stores to the parcel at a physical address since a grid's launch that happen before a fetch of a wave, newest first
(R43). -/
def State.parcelWrites (s : State) (wid : Nat) (g : Grid) (pa : Nat) : List Written :=
  let past := s.writeLog.take (s.writeLog.length - g.logAt)
  if past.any (fun p => p.writesParcel pa) then
    (writesBefore { agents := [wid], grids := [], wants := [] } past).filter (fun x => (Past.wrote x).writesParcel pa)
  else []

/-! ### Parcels -/

/-- A parcel fetched from an address by a wave: its value at the grid's launch in the text; elsewhere that value, or what
one of the stores since then gave that happen before the fetch, which one is free for each parcel (R43, R73, log 5). -/
def State.fetchParcel (s : State) (wid : Nat) (w : Wave) (g : Grid) (va : Word) : Except MemFault (BitVec 16) :=
  match s.translate w.at' g.vd va .fetch with
  | .error e => .error e
  | .ok (_, pa) =>
    let stores := if g.inText va then [] else s.parcelWrites wid g pa
    let n := Config.freeChoice (Nat.pair s.free (va.toNat / 2)) % (stores.length + 1)
    let seen := if stores.isEmpty then [] else stores.drop (stores.length - n)
    let byte := fun (a : Nat) =>
      (seen.findSome? (fun x => (x.bytes.find? (fun c => c.1 == a)).map Prod.snd)).getD (MemOps.read g.image a)
    .ok (parcelOf (byte pa) (byte (pa + 1)))

/-- A word of two parcels. -/
def State.fetchWord (s : State) (wid : Nat) (w : Wave) (g : Grid) (va : Word) : Except MemFault (BitVec 32) :=
  match s.fetchParcel wid w g va with
  | .error e => .error e
  | .ok p =>
    match s.fetchParcel wid w g (va + 2) with
    | .error e => .error e
    | .ok q => .ok (wordOf p q)

/-- What a fetch at an address gives: an instruction with its length, a word that is none with its length, or a fault,
with the length where the first parcel gave it. -/
inductive Fetched where
  | instr (i : Instr) (n : Nat)
  | illegal (n : Nat)
  | fault (e : MemFault) (n : Option Nat)
  deriving DecidableEq, Repr

/-- A decoded word. -/
def Fetched.of (r : Except DecodeErr Instr) (n : Nat) : Fetched :=
  match r with
  | .ok i => .instr i n
  | .error _ => .illegal n

/-- The instruction at an address: its first parcel gives its length (R43, R73, R94). Every parcel is fetched before
decode: one that cannot be fetched is a fetch fault, whatever the parcels before it hold (log 64). -/
def State.fetch (s : State) (wid : Nat) (w : Wave) (g : Grid) (pc : Word) : Fetched :=
  match s.fetchParcel wid w g pc with
  | .error e => .fault e none
  | .ok p =>
    if isDict p then .instr (.dictionaryParcel (p.extractLsb' 0 10)) 2
    else match s.fetchParcel wid w g (pc + 2) with
      | .error e => .fault e (some (parcelLen p))
      | .ok q =>
        if parcelLen p = 8 then
          match s.fetchParcel wid w g (pc + 4), s.fetchParcel wid w g (pc + 6) with
          | .error e, _ => .fault e (some 8)
          | _, .error e => .fault e (some 8)
          | .ok a, .ok b => Fetched.of (decodeWord (wordOf p q) (some (wordOf a b))) 8
        else Fetched.of (decodeWord (wordOf p q) none) 4

/-- What a fetch of n bytes leaves: the translations of its first and last byte (R205), and the lines that it read, each as one
request of the whole line (R196, R199, R259, R269; log 74). -/
def State.fetched (s : State) (w : Wave) (g : Grid) (pc : Word) (n : Nat) : State :=
  let last := pc + BitVec.ofNat 64 (n - 1)
  let lines := [pc, last].filterMap (fun va =>
    match s.translate w.at' g.vd va .fetch with
    | .ok (_, pa) => some (pa / 128)
    | .error _ => none)
  lines.eraseDups.foldl (fun s line => s.unitRead g.vd line 0 128) ((s.keep w.at' g.vd pc).keep w.at' g.vd last)

/-- What the check of a function header finds (R105). -/
inductive Header where
  | ok | bad
  | fault (e : MemFault)
  deriving DecidableEq, Repr

/-- HeaderOK of a call target, read as a fetch reads (R105). -/
def State.header (s : State) (wid : Nat) (w : Wave) (g : Grid) (t : Word) : Header :=
  if t.extractLsb' 0 2 != 0 then .bad
  else match s.fetchWord wid w g t with
    | .error e => .fault e
    | .ok h =>
      let nv := (h.extractLsb' 8 8).toNat
      let ns := (h.extractLsb' 0 7).toNat
      if h.extractLsb' 16 16 == 0xE0A5 && !h.getLsbD 7 && decide (1 ≤ nv ∧ nv ≤ 128) && decide (1 ≤ ns ∧ ns ≤ 64)
        && decide (nv ≤ w.nv) && decide (ns ≤ w.ns) then .ok else .bad

end Sys2Proof.Machine
end

