-- ==== Sys2Proof/Machine/Fragments.lean ====
section
/-! DEFINITION. Fragments and reconvergence records (R107, R108, R157 to R162), the end of waves and teams, and the
completion of the team barrier (R168). -/

namespace Sys2Proof.Machine

/-- A reconvergence record that is open. -/
def Wave.rec? (w : Wave) (q : Nat) : Option Rec := w.recs.getD q none

/-- A record replaced or released. -/
def Wave.setRec (w : Wave) (q : Nat) (r : Option Rec) : Wave := { w with recs := setAt w.recs q r }

/-- The positions of a list that hold nothing. -/
def freeSlots {α : Type} (xs : List (Option α)) : List Nat :=
  (List.range xs.length).filter (fun i => (xs.getD i none).isNone)

/-- The fragments parked at a record (R160). -/
def Wave.parkedAt (w : Wave) (q : Nat) : List (Nat × Fragment) :=
  w.live.filter (fun f => f.2.rec? == some q && f.2.park == .joined)

/-- The fragments that belong to a record. -/
def Wave.holders (w : Wave) (q : Nat) : List (Nat × Fragment) := w.live.filter (fun f => f.2.rec? == some q)

/-- The open records whose parent is q. -/
def Wave.children (w : Wave) (q : Nat) : List Nat :=
  (List.range w.recs.length).filter (fun i => (w.rec? i).any (fun r => r.parent == some q))

/-- An open record whose parent is q. -/
def Wave.nested (w : Wave) (q : Nat) : Bool := !(w.children q).isEmpty

/-- Parked fragments taken out of their entries; the handler mark follows to entry i (R344). -/
def Wave.gather (w : Wave) (parked : List (Nat × Fragment)) (i : Nat) : Wave :=
  let w' := parked.foldl (fun w g => w.dropFrag g.1) w
  if parked.any (fun g => w.inh == some g.1) then { w' with inh := some i } else w'

/-- The lanes of a list of fragments. -/
def lanesOf (fs : List (Nat × Fragment)) : LaneMask := fs.foldl (fun m g => m ||| g.2.lanes) 0

/-- The parked fragments of a record fused into the first of their entries, the model's choice (R160; log 64): lanes and masks united, the
record's parent, the address after the JOIN. A call restores MASK := A (R108). Nothing fuses when every expected lane
has ended. -/
def Wave.fuse (w : Wave) (q : Nat) (r : Rec) : Wave :=
  let parked := w.parkedAt q
  let lanes := lanesOf parked
  let i := (parked.head?.map Prod.fst).getD 0
  let mask := match r.call with
    | some k => k.origMask &&& lanes
    | none => parked.foldl (fun m g => m ||| g.2.mask) 0
  let pc := match parked with
    | g :: _ => g.2.pc + BitVec.ofNat 64 g.2.plen
    | [] => r.addr
  let w := (w.setRec q none).gather parked i
  if lanes = 0 then w
  else w.setFrag i { lanes := lanes, mask := mask, pc := pc, rec? := r.parent, park := .ready,
                     since := 0, wait := 0, plen := 0, waited := [], yielded := false }

/-- The deferred lanes of a call resume at the CALLI in one fragment, whose lane set holds those that returned as well:
they wait, outside its MASK, and every lane arrives at the record again (R108, R158; log 32). -/
def Wave.redo (w : Wave) (q : Nat) (r : Rec) (k : CallRec) : Wave :=
  let parked := w.parkedAt q
  let lanes := lanesOf parked
  let i := (parked.head?.map Prod.fst).getD 0
  let f : Fragment := { lanes := lanes, mask := k.deferred &&& lanes, pc := k.callPc, rec? := some q, park := .ready,
                        since := 0, wait := 0, plen := 0, waited := [], yielded := false }
  ((w.gather parked i).setRec q (some { r with
      arrived := r.expected &&& ~~~lanes
      call := some { k with deferred := 0, again := true } })).setFrag i f

/-- A record whose arrived set is its expected set and in which no nested record is open. -/
def Wave.complete? (w : Wave) (q : Nat) : Bool :=
  match w.rec? q with
  | some r => r.arrived &&& r.expected == r.expected && !w.nested q
  | none => false

/-- A record opened by SPLIT that has come to hold exactly one fragment, which has not arrived, is released (R161). So is
one that holds no fragment and one nested record, since R161 says that SPLIT records alone never run out while an entry is
free; that the nested record's bound may expire first, and its fragments then stand at the outer parent, is the model's
choice (log 64). -/
def Wave.idle? (w : Wave) (q : Nat) : Bool :=
  match w.rec? q with
  | some r => r.call.isNone &&
      (match w.holders q, w.children q with
       | [f], [] => f.2.park != .joined
       | [], [_] => true
       | _, _ => false)
  | none => false

/-- The open records whose parent is q take another parent (R161). -/
def Wave.adopt (w : Wave) (q : Nat) (p : Option Nat) : Wave :=
  { w with recs := w.recs.map (fun x => x.map (fun x => if x.parent = some q then { x with parent := p } else x)) }

/-- One record settled: completed (R108, R160) or released (R161). -/
def Wave.settleAt (w : Wave) (q : Nat) : Wave :=
  match w.rec? q with
  | none => w
  | some r =>
    if w.complete? q then
      match r.call with
      | some k => if k.deferred &&& lanesOf (w.parkedAt q) ≠ 0 then w.redo q r k else w.fuse q r
      | none => w.fuse q r
    else if w.idle? q then
      (w.holders q).foldl (fun w f => w.setFrag f.1 { f.2 with rec? := r.parent }) ((w.setRec q none).adopt q r.parent)
    else w

/-- Every record that can be settled is, in passes. -/
def Wave.settle (w : Wave) : Nat → Wave
  | 0 => w
  | n + 1 => ((List.range w.recs.length).foldl Wave.settleAt w).settle n

/-- Lanes that count as arrived at every record that expects them (R157, R160). -/
def Wave.arriveAll (w : Wave) (lanes : LaneMask) : Wave :=
  { w with recs := w.recs.map (fun r => r.map (fun r => { r with arrived := r.arrived ||| (lanes &&& r.expected) })) }

/-! ### The team barrier (R168) -/

/-- A wave that counts at a barrier: it has not ended. -/
def State.waveAt (s : State) (i : Nat) : Option Wave :=
  match TabOps.find? s.waves i with
  | some w => if w.life = .ended then none else some w
  | none => none

/-- Every fragment of every wave of a team that has not ended is parked as p says, and there is such a wave. -/
def State.allParked (s : State) (t : Team) (p : Park → Bool) : Bool :=
  let ws := t.waves.filterMap s.waveAt
  !ws.isEmpty && ws.all (fun w => w.live.all (fun f => p f.2.park))

/-- The parked fragments of a wave go on after their instruction. -/
def Wave.goOn (w : Wave) (p : Park → Bool) : Wave :=
  w.live.foldl (fun w f => if p f.2.park then w.setFrag f.1 (f.2.at' (f.2.pc + BitVec.ofNat 64 f.2.plen)) else w) w

/-- The protected lines of a team's fills lose their protection (R191). -/
def State.unprotect (s : State) (tid : Nat) : State :=
  { s with cores := TabOps.mapVals (fun _ c =>
      { c with l1 := c.l1.map (fun l => if l.2.team = tid then (l.1, { l.2 with prot := false }) else l) }) s.cores }

/-- A completed barrier of a team: every wave acquires at team scope, which invalidates nothing (R191, R234), and goes on at
the next instruction, its urgency count starts anew (R164, R168); a team asked to drain is held there, and its waves' bounds and deadlines stop (R182, R352). -/
def State.passBarrier (s : State) (tid : Nat) (t : Team) (p : Park → Bool) (drains : Bool) : State :=
  let s := (t.waves.filter (fun i => (s.waveAt i).isSome)).foldl (fun s i => s.noteAcquire i 1 [.bar tid]) s
  let s := t.waves.foldl (fun s i => s.modWave i (fun w => { w.goOn p with issued := 0 })) s
  let s := s.unprotect tid
  if drains && t.waves.any (fun i => ((s.waveAt i).map Wave.drain).getD false) then
    (t.waves.foldl (fun s i => s.stopWave i) s).setTeam tid { t with life := .held }
  else s

/-- BAR completes when every wave that has not ended has arrived (R168). -/
def State.checkBarrier (s : State) (tid : Nat) : State :=
  match TabOps.find? s.teams tid with
  | none => s
  | some t => if s.allParked t (· == .bar) then s.passBarrier tid t (· == .bar) true else s

/-! ### The end of fragments, waves and teams (R157) -/

/-- A team all of whose waves have ended has ended. -/
def State.checkTeam (s : State) (tid : Nat) : State :=
  match TabOps.find? s.teams tid with
  | none => s
  | some t =>
    if t.life = .running && t.waves.all (fun i => (s.waveAt i).isNone) then s.setTeam tid { t with life := .ended }
    else s

/-- The end of a wave without fragments, then what waited for it. -/
def State.afterEnd (s : State) (wid : Nat) : State :=
  match TabOps.find? s.waves wid with
  | none => s
  | some w =>
    let s := if w.live.isEmpty then s.setWave wid w.end' else s
    (s.checkBarrier w.team).checkTeam w.team

/-- A fragment ends with its lanes (R157); the trap handler it may have been in is left (log 15). -/
def State.endFragment (s : State) (wid fid : Nat) : State :=
  match TabOps.find? s.waves wid with
  | none => s
  | some w =>
    match w.frag? fid with
    | none => s
    | some f =>
      let inH := w.inh == some fid
      let w := (((w.dropFrag fid).arriveAll f.lanes).endChain.settle 8)
      let w := if inH then { w with inh := none } else w
      let s := s.setWave wid w
      let s := if inH then s.deliverOldest wid else s
      s.afterEnd wid

/-! ### Arrival (R160) and expiry (R161) -/

/-- Entry i of the table in the dictionary RAM of a wave's core, within the grid's own count (R85, R86). -/
def State.dictWord (s : State) (w : Wave) (g : Grid) (i : Nat) : Option Word :=
  if i < g.packet.dictN then (s.core w.key).dict.bind (fun d => d.2[i]?) else none

/-- An instruction of a wave reads a vector latch (R81). -/
def State.readsLatch (s : State) (w : Wave) (g : Grid) : Instr → Bool
  | .dictionaryParcel i =>
    (match (s.dictWord w g i.toNat).map decodeEntry with
     | some (.ok j) => (j.vec?).any (fun f => !f.latches.isEmpty)
     | _ => false)
  | i => (i.vec?).any (fun f => !f.latches.isEmpty)

/-- A chain is open: the next instruction of its fragment reads a latch, or is not fetched yet (R81, R82). -/
def State.chainOpen (s : State) (wid : Nat) (w : Wave) : Bool :=
  !w.latches.isEmpty &&
    (match w.frag? w.chainFrag, TabOps.find? s.grids w.grid with
     | some f, some g =>
       (match s.fetch wid w g f.pc with
        | .instr i _ => s.readsLatch w g i
        | .fault _ _ => true
        | .illegal _ => false)
     | _, _ => false)

/-- The JOIN that stands at a record's address: its register and its length. A record of a call has none (R108). Where
the fetch at the address fails there is no JOIN to read, and the arrival, which issues nothing, raises nothing (R160;
log 64). -/
def State.joinAt (s : State) (wid : Nat) (w : Wave) (g : Grid) (r : Rec) : Option (SReg × Nat) :=
  if r.call.isSome then none
  else match s.fetch wid w g r.addr with
    | .instr (.join a) n => some (a, n)
    | .instr (.dictionaryParcel i) _ =>
      match (s.dictWord w g i.toNat).map decodeEntry with
      | some (.ok (.join a)) => some (a, 2)
      | _ => none
    | _ => none

/-- A fragment stalls at its instruction, which it has not issued: it is ready as soon as the stall is over (R129, R163,
R292). -/
def Park.stalls : Park → Bool
  | .score _ | .queueFull _ | .closeFull _ | .cbacq _ | .pairBusy => true
  | _ => false

/-- A fragment stands at its record's address and arrives there instead of issuing (R160). -/
def Wave.arrives (w : Wave) (f : Fragment) : Bool :=
  (f.park == .ready || f.park.stalls) && (f.rec?.bind w.rec?).any (fun r => r.addr == f.pc)

/-- A JOIN with a pending register would stall and not issue (R160, R292). -/
def Wave.joinStalls (w : Wave) (j : Option (SReg × Nat)) : Bool :=
  j.any (fun x => w.hasS x.1.toNat && w.pendingAny [x.1.toNat])

/-- The first arrival at a record reads the bound of the JOIN that stands there, which is its first read of a completion
register too (R160, R243). -/
def State.readBound (s : State) (wid : Nat) (w : Wave) (g : Grid) (j : Option (SReg × Nat)) : Wave × State :=
  match j, TabOps.find? s.teams w.team with
  | some x, some t =>
    if w.doneRegs.contains x.1.toNat then
      ({ w with doneRegs := w.doneRegs.filter (· != x.1.toNat) }, s.acquire (s.routeOf wid w t g) 6 [.reg wid x.1.toNat])
    else (w, s)
  | _, _ => (w, s)

/-- FRAGMENT_ARRIVE: a fragment that would issue at its record's address parks there; what it ends is its own chain
(R160, R162). An arrival issues nothing, so it raises no BUDGET where the JOIN's register is not allocated: the bound is
what the register holds, the model's choice (log 64). -/
def execFragmentArrive (wid fid : Nat) (s : State) : Out State :=
  match TabOps.find? s.waves wid with
  | none => .next s
  | some w =>
    match w.frag? fid, TabOps.find? s.grids w.grid with
    | some f, some g =>
      match f.rec?.bind (fun q => (w.rec? q).map (fun r => (q, r))) with
      | some (q, r) =>
        let j := s.joinAt wid w g r
        if !w.arrives f || w.joinStalls j then .next s
        else
          let x := if r.first.isSome then (w, s) else s.readBound wid w g j
          let r := { r with
            arrived := r.arrived ||| f.lanes
            first := if r.first.isSome then r.first else some (s.cycleOf w)
            bound := if r.first.isSome then r.bound else (j.map (fun x => w.s x.1)).getD 0 }
          let w := (((s.endChainFor wid fid x.1).setRec q (some r)).setFrag fid
            { f with park := .joined, plen := (j.map Prod.snd).getD 0 }).settle 8
          .next ((x.2.setWave wid w).afterEnd wid)
      | none => .next s
    | _, _ => .next s

/-- A record released at its bound: its parked fragments go on, the others move to its parent (R161). -/
def Wave.expire (w : Wave) (q : Nat) (r : Rec) : Wave :=
  let late := (w.holders q).filter (fun f => f.2.park != .joined)
  let w := w.fuse q r
  (late.foldl (fun w f => w.setFrag f.1 { f.2 with rec? := r.parent }) w).adopt q r.parent

/-- A record's bound has run out: CYCLE has reached the first arrival's plus the bound (R161). -/
def State.expired (s : State) (w : Wave) (r : Rec) : Bool :=
  match r.first with
  | some c => r.bound != 0 && decide (r.bound.toNat ≤ (s.timeOf w - c).toNat)
  | none => false

/-- The cycle is the one in which the bound runs out, c₀ + b, in which an arrival still wins (R161). -/
def State.lastCycle (s : State) (w : Wave) (r : Rec) : Bool :=
  match r.first with
  | some c => r.bound != 0 && s.timeOf w - c == r.bound
  | none => false

/-- JOIN_BOUND_EXPIRE: a record still open at its bound is released (R161). -/
def execJoinBoundExpire (wid q : Nat) (s : State) : Out State :=
  match TabOps.find? s.waves wid with
  | none => .next s
  | some w =>
    match w.rec? q with
    | some r => if s.expired w r then .next (s.setWave wid ((w.expire q r).settle 8)) else .next s
    | none => .next s

end Sys2Proof.Machine
end

