-- ==== Sys2Proof/Machine/Batches.lean ====
section
/-! DEFINITION. Event slots (R172, R174 to R176), batches (R294, R295) and the filling of circular-buffer stages
(R299): what marks a slot pending, and what the completion of an operation sets off. -/

namespace Sys2Proof.Machine

/-! ### Slots -/

/-- A slot's binding. -/
def Wave.bind (w : Wave) (k : Nat) : Binding := w.binds.getD k Binding.none

/-- A slot's mailbox counter (R172). -/
def Wave.count (w : Wave) (k : Nat) : BitVec 8 := w.counts.getD k 0

/-- A slot's pending bit set or cleared. -/
def Wave.setPending (w : Wave) (k : Nat) (b : Bool) : Wave :=
  { w with evpend := if b then w.evpend ||| BitVec.ofNat 16 (2 ^ k) else w.evpend &&& ~~~BitVec.ofNat 16 (2 ^ k) }

/-- The source of a slot happens: the slot becomes pending; a source that fires once is spent (R175). A wave that
has ended records nothing (R157). -/
def Wave.markSlot (w : Wave) (k : Nat) : Wave :=
  if w.life = .ended then w
  else
    let b := w.bind k
    let once := b.kind != 1 && b.kind != 4
    if once && !b.armed then w
    else { w.setPending k true with binds := setAt w.binds k { b with armed := b.armed && !once } }

/-- Every slot whose binding satisfies p is marked. -/
def Wave.markWhere (w : Wave) (p : Binding → Bool) : Wave :=
  (List.range 16).foldl (fun w k => if p (w.bind k) then w.markSlot k else w) w

/-! ### Batches -/

/-- A class of batches of a wave. -/
def Wave.batch (w : Wave) (c : Nat) : Batch := w.batches.getD c { cl := 0, dn := 0, opened := [], closed := [] }

/-- DN passes every closed batch, oldest first, that has no operation left (R294). -/
def Batch.advance (b : Batch) : Nat → Batch
  | 0 => b
  | n + 1 =>
    match b.closed with
    | (_, []) :: rest => Batch.advance { b with dn := b.dn + 1, closed := rest } n
    | _ => b

/-- A class after a change: DN advances, and the slots bound to a batch that has now completed are marked
(R175, R294). -/
def Wave.setBatch (w : Wave) (c : Nat) (b : Batch) : Wave :=
  let b := b.advance (b.closed.length + 1)
  { w with batches := setAt w.batches c b }.markWhere
    (fun x => x.kind == 2 && x.cls.toNat == c && serialLe x.arg b.dn)

/-- An operation gone from a class. -/
def Batch.remove (b : Batch) (op : Nat) : Batch :=
  { b with opened := b.opened.filter (· != op), closed := b.closed.map (fun x => (x.1, x.2.filter (· != op))) }

/-- The batch of an operation that has not completed: a closed one, or the open one, which the next close numbers. -/
def Batch.numberOf (b : Batch) (op : Nat) : BitVec 16 :=
  match b.closed.find? (fun x => x.2.contains op) with
  | some x => BitVec.ofNat 16 x.1
  | none => b.cl + 1

/-- A new operation in the open batch of a class. -/
def Wave.addOp (w : Wave) (c : Nat) (op : Nat) : Wave :=
  { w with batches := setAt w.batches c { w.batch c with opened := (w.batch c).opened ++ [op] } }

/-- A lane set as two words of a log entry, by which it knows a fragment (R403). -/
def laneWords (m : LaneMask) : List Nat := [(m.extractLsb' 0 64).toNat, (m.extractLsb' 64 64).toNat]

/-! ### Stages (R299) -/

/-- Bound commits of a wave whose batch has completed become commits. -/
def CbCommit.settle (wid : Nat) (dn : BitVec 16) : CbCommit → CbCommit
  | .bound w n => if w = wid ∧ serialLe n dn then .full else .bound w n
  | x => x

/-- COM passes every committed stage in order; the stages that became full. -/
def Cb.fill (b : Cb) : Nat → Cb × List (BitVec 16)
  | 0 => (b, [])
  | n + 1 =>
    match b.pending with
    | .full :: rest =>
      let r := Cb.fill { b with com := b.com + 1, pending := rest } n
      (r.1, b.com :: r.2)
    | _ => (b, [])

/-- A stage is full: it lies below COM (R300). -/
def Cb.isFull (b : Cb) (stage : BitVec 16) : Bool := decide ((stage - b.rel).toNat < (b.com - b.rel).toNat)

/-- The stage of buffer k, now full, for which a fragment waits (R300). -/
def Cb.stageFor (b : Cb) (k : Nat) : Park → Option (BitVec 16)
  | .cbwait j x => if j.toNat == k && b.isFull x then some x else none
  | _ => none

/-- Fragments of a wave that wait for a stage of buffer k which is now full go on; the acquire of team scope invalidates
nothing (R191, R300). -/
def State.wakeStage (s : State) (tid wid k : Nat) (b : Cb) : State :=
  let stages := (((TabOps.find? s.waves wid).map Wave.live).getD []).filterMap (fun f => b.stageFor k f.2.park)
  (s.noteAcquire wid 1 (stages.map (.stage tid k))).modWave wid (fun w => w.goOn (fun p => (b.stageFor k p).isSome))

/-- A circular buffer of a team after a change: stages become full in order, the fragments that wait for one go on,
and the slots of the team's waves that watch one of them are marked (R175, R299, R300). -/
def State.setCb (s : State) (tid : Nat) (k : Nat) (b : Cb) : State :=
  match TabOps.find? s.teams tid with
  | none => s
  | some t =>
    let r := b.fill (b.pending.length + 1)
    let s := s.setTeam tid { t with cbs := setAt t.cbs k (some r.1) }
    t.waves.foldl (fun s i => (s.wakeStage tid i k r.1).modWave i
      (fun w => w.markWhere (fun x => x.kind == 3 && x.arg.toNat == k && r.2.contains x.stage))) s

/-- A circular buffer of a team. -/
def Team.cb (t : Team) (k : Nat) : Option Cb := t.cbs.getD k none

/-- The stages whose bound commit by a wave is due, with the batch of each. -/
def Cb.dueStages (b : Cb) (wid : Nat) (dn : BitVec 16) : List (BitVec 16 × BitVec 16) :=
  b.pending.zipIdx.filterMap (fun x =>
    match x.1 with
    | .bound w n => if w = wid ∧ serialLe n dn then some (b.com + BitVec.ofNat 16 x.2, n) else none
    | .acquired | .full => none)

/-- The due commits of a wave in a buffer made: each stage keeps the wave that bound it. -/
def Cb.settleFor (b : Cb) (wid : Nat) (dn : BitVec 16) : Cb :=
  { b with
    pending := b.pending.map (CbCommit.settle wid dn)
    filled := (b.dueStages wid dn).foldl (fun t x => TabOps.put t x.1.toNat wid) b.filled }

/-- The bound commits of a wave in one buffer after its COPY class advanced: the wave observes the completion, then releases
at team scope, then the stages are committed; the core does so on the behalf of one that has ended (R299). -/
def State.settleBuffer (s : State) (wid : Nat) (w : Wave) (k : Nat) : State :=
  match TabOps.find? s.teams w.team, TabOps.find? s.grids w.grid with
  | some t, some g =>
    match t.cb k with
    | none => s
    | some b =>
      let dn := (w.batch 0).dn
      let due := b.dueStages wid dn
      let r := s.routeOf wid w t g
      let s := if due.isEmpty then s else s.acquire r 6 (due.map (fun x => .batch wid 0 x.2))
      (due.foldl (fun s x => s.release r 1 (.stage w.team k x.1)) s).setCb w.team k (b.settleFor wid dn)
  | _, _ => s

/-- The bound commits of a wave after its COPY class advanced (R299). -/
def State.settleCommits (s : State) (wid : Nat) : State :=
  match TabOps.find? s.waves wid with
  | none => s
  | some w => (List.range 8).foldl (fun s k => s.settleBuffer wid w k) s

/-! ### The completion of an operation (R291 to R295) -/

/-- The completion of an operation of a wave noted, under its class, batch and register (R243). -/
def State.noteDone (s : State) (id : Nat) (o : Op) (w : Wave) : State :=
  s.note (.completed id o.wave o.cls.toNat ((w.batch o.cls.toNat).numberOf id) o.sd)

/-- An operation of a wave ends: its batch, its slots, the commits bound to it, its completion register with the
status word tagged EG (R264). The wave acquires the operation's writes when it first reads the word; a wave that has ended
takes none of it (R243, R295). -/
def State.opDone (s : State) (id : Nat) (o : Op) (status : Word) : State :=
  let s : State := { s with ops := TabOps.drop s.ops id }
  match TabOps.find? s.waves o.wave with
  | none => s
  | some w =>
    let w1 := match o.sd with
      | some r => if w.life = WaveLife.ended then w else w.setE (BitVec.ofNat 6 r) status
      | none => w
    let w2 := { w1 with pendRegs := w.pendRegs.filter (fun p => p.2 != id) }
    let w3 := w2.setBatch o.cls.toNat ((w2.batch o.cls.toNat).remove id)
    let s := (s.noteDone id o w).setWave o.wave w3
    let s := if o.cls = 0 then s.settleCommits o.wave else s
    match o.sd with
    | some r => if w.life != .ended && o.cls != 2 then
        s.modWave o.wave (fun w => { w with doneRegs := (r :: w.doneRegs).eraseDups }) else s
    | none => s

/-- An operation joins the state, its wave's open batch and, with a completion register, the pending registers. -/
def State.opStart (s : State) (o : Op) : State :=
  let id := s.opNext
  let s : State := { s with opNext := id + 1, ops := TabOps.put s.ops id o }
  s.modWave o.wave (fun w =>
    let w := w.addOp o.cls.toNat id
    match o.sd with
    | some r => { w with pendRegs := w.pendRegs ++ [(r, id)] }
    | none => w)

/-- The operations that the waves of a team issued and that have not completed. -/
def State.teamOps (s : State) (tid : Nat) : List (Nat × Op) := s.ops.filter (fun o => o.2.team == tid)

end Sys2Proof.Machine
end

