-- ==== Sys2Proof/Machine/Scalar.lean ====
section
/-! DEFINITION. Scalar integer instructions and compares (R98 to R102): repeated at grades 2 and 3 (R97), the result
tagged with the smallest of the sources' tags and EG (R96, R264). -/

namespace Sys2Proof.Machine

/-- The tag of a scalar result (R264). -/
def Wave.resultTag (w : Wave) (rs : List SReg) : Grade := rs.foldl (fun t r => Grade.min t (w.stag r)) w.eg

/-- A register-register operation: d := g(a, b). -/
def aluOp (s : State) (d a b : SReg) (g : Word → Word → Word) : Out State :=
  scalarOp s [d.toNat] [a.toNat, b.toNat] [] fun c s =>
    c.repeated s 64 (g (c.w.s a) (c.w.s b)) (fun w x => w.setS d x (c.w.resultTag [a, b]))

/-- An operation of one source: d := g(a). -/
def unaryOp (s : State) (d a : SReg) (g : Word → Word) : Out State :=
  scalarOp s [d.toNat] [a.toNat] [] fun c s =>
    c.repeated s 64 (g (c.w.s a)) (fun w x => w.setS d x (c.w.resultTag [a]))

/-- An operation that reads its destination too (R96): d := g(d, a, b). -/
def alu3Op (s : State) (d a b : SReg) (g : Word → Word → Word → Word) : Out State :=
  scalarOp s [] [d.toNat, a.toNat, b.toNat] [] fun c s =>
    c.repeated s 64 (g (c.w.s d) (c.w.s a) (c.w.s b)) (fun w x => w.setS d x (c.w.resultTag [d, a, b]))

/-! ### The functions (R98 to R101) -/

def mulHigh (a b : Word) : Word := BitVec.ofInt 64 (a.toInt * b.toInt / 2 ^ 64)
def mulHighZ (a b : Word) : Word := BitVec.ofNat 64 (a.toNat * b.toNat / 2 ^ 64)

/-- SDIV: by zero -1, truncated toward zero; -2^63 by -1 wraps to -2^63 (R98). -/
def divS (a b : Word) : Word := if b = 0 then BitVec.allOnes 64 else BitVec.ofInt 64 (a.toInt.tdiv b.toInt)
def divZ (a b : Word) : Word := if b = 0 then BitVec.allOnes 64 else BitVec.ofNat 64 (a.toNat / b.toNat)

/-- SREM: by zero a; the result takes the sign of a (R98). -/
def remS (a b : Word) : Word := if b = 0 then a else BitVec.ofInt 64 (a.toInt.tmod b.toInt)
def remZ (a b : Word) : Word := if b = 0 then a else BitVec.ofNat 64 (a.toNat % b.toNat)

/-- A shift amount: b[5:0] (R98). -/
def amount (b : Word) : Nat := b.toNat % 64

/-- The leading zero bits of a number below 2^n. -/
def leadingZeros (n v : Nat) : Nat := if v = 0 then n else n - 1 - Nat.log2 v

/-- The one bits of n low bits. -/
def popCount (x : BitVec 128) : Nat → Nat
  | 0 => 0
  | n + 1 => (if x.getLsbD n then 1 else 0) + popCount x n

/-- The mask of a field descriptor's length, b[13:8] + 1 bits (R99). -/
def fieldMask (b : Word) : Word := BitVec.ofNat 64 (2 ^ (bits b 13 8 + 1) - 1)

/-- SBFX (R99). -/
def fieldGet (a b : Word) : Word := (a >>> amount b) &&& fieldMask b

/-- SBFI (R99). -/
def fieldPut (d a b : Word) : Word := (d &&& ~~~(fieldMask b <<< amount b)) ||| ((a &&& fieldMask b) <<< amount b)

/-- imm13 as a word (R74). -/
def imm (i : BitVec 13) : Word := i.signExtend 64

/-! ### SOP arithmetic and logic (R98) -/

/-- SADD (R98). -/
def execSadd (d a b : SReg) (s : State) : Out State := aluOp s d a b (· + ·)
/-- SSUB (R98). -/
def execSsub (d a b : SReg) (s : State) : Out State := aluOp s d a b (· - ·)
/-- SMUL (R98). -/
def execSmul (d a b : SReg) (s : State) : Out State := aluOp s d a b (· * ·)
/-- SMULH (R98). -/
def execSmulh (d a b : SReg) (s : State) : Out State := aluOp s d a b mulHigh
/-- SMULHZ (R98). -/
def execSmulhz (d a b : SReg) (s : State) : Out State := aluOp s d a b mulHighZ
/-- SDIV (R98). -/
def execSdiv (d a b : SReg) (s : State) : Out State := aluOp s d a b divS
/-- SDIVZ (R98). -/
def execSdivz (d a b : SReg) (s : State) : Out State := aluOp s d a b divZ
/-- SREM (R98). -/
def execSrem (d a b : SReg) (s : State) : Out State := aluOp s d a b remS
/-- SREMZ (R98). -/
def execSremz (d a b : SReg) (s : State) : Out State := aluOp s d a b remZ
/-- SAND (R98). -/
def execSand (d a b : SReg) (s : State) : Out State := aluOp s d a b (· &&& ·)
/-- SOR (R98). -/
def execSor (d a b : SReg) (s : State) : Out State := aluOp s d a b (· ||| ·)
/-- SXOR (R98). -/
def execSxor (d a b : SReg) (s : State) : Out State := aluOp s d a b (· ^^^ ·)
/-- SSHL (R98). -/
def execSshl (d a b : SReg) (s : State) : Out State := aluOp s d a b (fun x y => x <<< amount y)
/-- SSHR (R98). -/
def execSshr (d a b : SReg) (s : State) : Out State := aluOp s d a b (fun x y => x >>> amount y)
/-- SSRA (R98). -/
def execSsra (d a b : SReg) (s : State) : Out State := aluOp s d a b (fun x y => x.sshiftRight (amount y))
/-- SROL (R98). -/
def execSrol (d a b : SReg) (s : State) : Out State := aluOp s d a b (fun x y => x.rotateLeft (amount y))
/-- SMIN (R98). -/
def execSmin (d a b : SReg) (s : State) : Out State := aluOp s d a b (fun x y => if y.slt x then y else x)
/-- SMAX (R98). -/
def execSmax (d a b : SReg) (s : State) : Out State := aluOp s d a b (fun x y => if x.slt y then y else x)
/-- SMINZ (R98). -/
def execSminz (d a b : SReg) (s : State) : Out State := aluOp s d a b (fun x y => if y.ult x then y else x)
/-- SMAXZ (R98). -/
def execSmaxz (d a b : SReg) (s : State) : Out State := aluOp s d a b (fun x y => if x.ult y then y else x)
/-- SCLZ (R98). -/
def execSclz (d a : SReg) (s : State) : Out State := unaryOp s d a (fun x => BitVec.ofNat 64 (leadingZeros 64 x.toNat))
/-- SPOPC (R98). -/
def execSpopc (d a : SReg) (s : State) : Out State :=
  unaryOp s d a (fun x => BitVec.ofNat 64 (popCount (x.zeroExtend 128) 64))
/-- SBFX (R98, R99). -/
def execSbfx (d a b : SReg) (s : State) : Out State := aluOp s d a b fieldGet
/-- SBFI (R98, R99). -/
def execSbfi (d a b : SReg) (s : State) : Out State := alu3Op s d a b fieldPut
/-- SSEL (R98). -/
def execSsel (d a b : SReg) (s : State) : Out State := alu3Op s d a b (fun o x y => if o ≠ 0 then x else y)

/-! ### Immediate forms (R100, R101) -/

/-- SADDI (R100). -/
def execSaddi (d a : SReg) (i : BitVec 13) (s : State) : Out State := unaryOp s d a (· + imm i)
/-- SANDI (R100). -/
def execSandi (d a : SReg) (i : BitVec 13) (s : State) : Out State := unaryOp s d a (· &&& imm i)
/-- SORI (R100). -/
def execSori (d a : SReg) (i : BitVec 13) (s : State) : Out State := unaryOp s d a (· ||| imm i)
/-- SXORI (R100). -/
def execSxori (d a : SReg) (i : BitVec 13) (s : State) : Out State := unaryOp s d a (· ^^^ imm i)
/-- SSHLI (R100). -/
def execSshli (d a : SReg) (i : BitVec 6) (s : State) : Out State := unaryOp s d a (· <<< i.toNat)
/-- SSHRI (R100). -/
def execSshri (d a : SReg) (i : BitVec 6) (s : State) : Out State := unaryOp s d a (· >>> i.toNat)
/-- SSRAI (R100). -/
def execSsrai (d a : SReg) (i : BitVec 6) (s : State) : Out State := unaryOp s d a (fun x => x.sshiftRight i.toNat)

/-- SLUI: imm19 << 13, sign-extended from bit 31 (R101). -/
def execSlui (d : SReg) (i : BitVec 19) (s : State) : Out State :=
  scalarOp s [d.toNat] [] [] fun c s =>
    c.repeated s 64 ((i ++ 0#13).signExtend 64) (fun w x => w.setS d x c.w.eg)

/-- SLEA: a + (b << shift) (R101). -/
def execSlea (d a b : SReg) (h : BitVec 3) (s : State) : Out State := aluOp s d a b (fun x y => x + (y <<< h.toNat))

/-! ### Compares (R102) -/

/-- SCMP writes FLG and no register (R102). -/
def execScmp (a b : SReg) (s : State) : Out State :=
  scalarOp s [] [a.toNat, b.toNat] [] fun c s =>
    c.repeated s 4 ((compareFlags (c.w.s a) (c.w.s b)).zeroExtend 64) (fun w x => { w with flg := x.extractLsb' 0 4 })

/-- SCMPI (R102). -/
def execScmpi (a : SReg) (i : BitVec 13) (s : State) : Out State :=
  scalarOp s [] [a.toNat] [] fun c s =>
    c.repeated s 4 ((compareFlags (c.w.s a) (imm i)).zeroExtend 64) (fun w x => { w with flg := x.extractLsb' 0 4 })

end Sys2Proof.Machine
end

