-- ==== Sys2Proof/Machine/Control.lean ====
section
/-! DEFINITION. Branches, calls and mask instructions (R103 to R110). -/

namespace Sys2Proof.Machine

/-! ### Branches (R103, R104) -/

/-- The target of a direct branch: its own address plus 2 × offset (R103). -/
def Ctx.target (c : Ctx) (offset : Word) : Word := c.f.pc + (offset <<< 1)

/-- A branch that is taken where a condition holds (R103). -/
def branchIf (s : State) (offset : Word) (cond : Ctx → Bool) : Out State :=
  withEnd s fun c => c.jump s c.w (if cond c then c.target offset else c.after)

/-- BR (R103). -/
def execBr (o : BitVec 25) (s : State) : Out State := branchIf s (o.signExtend 64) (fun _ => true)

/-- BC (R89, R103). -/
def execBc (k : BitVec 4) (o : BitVec 15) (s : State) : Out State :=
  branchIf s (o.signExtend 64) (fun c => condHolds k c.w.flg)

/-- BMZ (R103). -/
def execBmz (o : BitVec 15) (s : State) : Out State := branchIf s (o.signExtend 64) (fun c => c.f.mask == 0)

/-- BMNZ (R103). -/
def execBmnz (o : BitVec 15) (s : State) : Out State := branchIf s (o.signExtend 64) (fun c => c.f.mask != 0)

/-- A transfer through a register, bit 0 cleared (R104). -/
def jumpReg (s : State) (a : SReg) : Out State :=
  scalarOp s [] [a.toNat] [] fun c s => c.jump s c.w (c.w.s a &&& ~~~1)

/-- JMPR (R104). -/
def execJmpr (a : SReg) (s : State) : Out State := jumpReg s a

/-- RET differs from JMPR only in what it tells a predictor (R104). -/
def execRet (a : SReg) (s : State) : Out State := jumpReg s a

/-! ### Calls (R105 to R108) -/

/-- What the check of a header leaves: the traces of a fetch of its word (R105, R205, R259). -/
def Ctx.headRead (c : Ctx) (s : State) (t : Word) : State :=
  if t.extractLsb' 0 2 != 0 then s else s.fetched c.w c.g t 4

/-- CALL (R106): the link is S63; the header's address is the information of a page fault. -/
def execCall (o : BitVec 25) (s : State) : Out State :=
  scalarOp s [] [63] [] fun c s =>
    let t := c.target (o.signExtend 64)
    match s.header c.wid c.w c.g t with
    | .fault e => c.raiseMem s (Cause.ofMem e) t
    | .bad => c.raise (c.headRead s t) Cause.budget 0
    | .ok => c.jump (c.headRead s t) (c.w.setE 63 c.after) (t + 4)

/-- The lanes of a mask, in rising order. -/
def laneList (w : Nat) (m : LaneMask) : List Nat := (List.range w).filter (fun l => m.getLsbD l)

/-- The causes of one header check and the address it concerns. -/
def headerCause (h : Header) (t : Word) : Word × Option Word :=
  match h with
  | .ok => (0, none)
  | .bad => (Cause.budget, none)
  | .fault e => (Cause.ofMem e, some t)

/-- A value put into a list of rising values, once. -/
def insertWord (x : Word) : List Word → List Word
  | [] => [x]
  | y :: ys => if x = y then y :: ys else if x.toNat < y.toNat then x :: y :: ys else y :: insertWord x ys

/-- The lanes of a mask whose target is t. -/
def lanesTo (w : Nat) (m : LaneMask) (tgt : Nat → Word) (t : Word) : LaneMask :=
  (laneList w m).foldl (fun a l => if tgt l = t then a ||| ones l 1 else a) 0

/-- The fragments of a CALLI, with the entries that they take: the first target's has the calling entry, and keeps in its
lane set every lane that no other one takes, the inactive and the deferred ones too (R107, R158; log 32). -/
def Wave.spread (w : Wave) (fid : Nat) (f : Fragment) (q : Nat) (goesTo : Word → LaneMask) (run : List (Word × Nat)) :
    Wave :=
  let others := run.foldl (fun m x => if x.2 = fid then m else m ||| goesTo x.1) 0
  run.foldl (fun w x => w.setFrag x.2 { f.at' (x.1 + 4) with
    lanes := if x.2 = fid then f.lanes &&& ~~~others else goesTo x.1
    mask := goesTo x.1
    rec? := some q }) w

/-- The record of the CALLI whose deferred lanes the executing fragment is to evaluate again, if it stands at that
CALLI: a trap between does not end the pass (R108). -/
def Ctx.again (c : Ctx) (w : Wave) : Option (Nat × Rec × CallRec) :=
  c.f.rec?.bind fun q => (w.rec? q).bind fun r =>
    (r.call.filter (fun k => k.again && k.callPc == c.f.pc)).map (fun k => (q, r, k))

/-- The transfer of a CALLI with two or more targets: a new record, or the one of the pass that goes on (R107,
R108). None when no record is free. Which free record and which free entries it takes R107 leaves open: the lowest ones, in
the order of the targets (log 64). -/
def Ctx.callGroups (c : Ctx) (w : Wave) (tgt : Nat → Word) (groups : List Word) : Option Wave :=
  let goesTo := lanesTo w.width c.f.mask tgt
  let slots := c.fid :: freeSlots w.frags
  let later := (groups.drop slots.length).foldl (fun m t => m ||| goesTo t) 0
  let q? : Option (Nat × Rec) :=
    match c.again w with
    | some (q, r, k) => some (q, { r with call := some { k with deferred := later, again := false } })
    | none => (freeSlots w.recs).head?.map (fun q =>
        (q, { addr := c.after, expected := c.f.lanes, arrived := 0,
              call := some { callPc := c.f.pc, origMask := c.f.mask, deferred := later },
              parent := c.f.rec?, first := none, bound := 0 }))
  q?.map fun (q, r) => (w.endChain.setRec q (some r)).spread c.fid c.f q goesTo (groups.zip slots)

/-- The wave after a pass of one target or of none, which opens no record and ends the evaluation again (R107, R108). -/
def Ctx.evaluated (c : Ctx) (w : Wave) : Wave :=
  match c.again w with
  | some (q, r, k) => w.setRec q (some { r with call := some { k with again := false } })
  | none => w

/-- CALLI (R107): the headers of all active lanes are checked before any transfer, and a poisoned target is
consumed (R267). -/
def execCalli (d : SReg) (v : BitVec 7) (s : State) : Out State :=
  scalarOp s [d.toNat] [] [v.toNat, v.toNat + 1] fun c s =>
    let x := (c.w.v v.toNat, c.w.v (v.toNat + 1))
    let tgt := fun l => lane64 x l
    let act := laneList c.w.width c.f.mask
    let bad := (x.1.poison ||| x.2.poison) &&& c.f.mask
    let clean := act.filter (fun l => !bad.getLsbD l)
    let found := clean.map (fun l => headerCause (s.header c.wid c.w c.g (tgt l)) (tgt l))
    let causes := found.foldl (fun a h => a ||| h.1) (0 : Word)
    let info := (found.findSome? Prod.snd).getD 0
    let groups := act.foldl (fun g l => insertWord (tgt l) g) []
    let s := (clean.foldl (fun g l => insertWord (tgt l) g) []).foldl c.headRead s
    if bad ≠ 0 then c.consume s causes info true
    else if causes ≠ 0 then s.raiseAt c.wid c.fid c.ilen causes info true
    else
      let w := c.w.setE d c.after
      match groups with
      | [] => c.next s (c.evaluated w)
      | [t] => c.jump s (c.evaluated w) (t + 4)
      | _ => match c.callGroups w tgt groups with
        | some w => s.setWave c.wid w
        | none => c.raise s Cause.fragfull 0

/-! ### Masks (R110) -/

/-- The registers of a mask operand: an even pair in a wave of 128 lanes. -/
def Wave.maskRegs (w : Wave) (r : SReg) : List Nat := if w.width = 128 then [r.toNat, r.toNat + 1] else [r.toNat]

/-- A mask operand's field is odd in a wave of 128 lanes: ILLOP at decode (R110, R159). -/
def Wave.maskOdd (w : Wave) (r : SReg) : Bool := w.width == 128 && r.toNat % 2 == 1

/-- A mask operand, one bit per lane (R110). -/
def Wave.maskOf (w : Wave) (r : SReg) : LaneMask :=
  (if w.width = 128 then w.s (r + 1) ++ w.s r else (w.s r).zeroExtend 128) &&& w.all

/-- A mask written to its register or pair (R110). -/
def Wave.setMask (w : Wave) (r : SReg) (m : LaneMask) : Wave :=
  let w' := w.setE r (m.extractLsb' 0 64)
  if w.width = 128 then w'.setE (r + 1) (m.extractLsb' 64 64) else w'

/-- The start of an instruction with a mask operand. -/
def maskOperand (s : State) (r : SReg) (k : Ctx → State → State) (written : Bool := false) : Out State :=
  withEnd s fun c =>
    if c.w.maskOdd r then c.raise s Cause.illop 0
    else c.scalar s (if written then c.w.maskRegs r else []) (if written then [] else c.w.maskRegs r) [] k

/-- An instruction that gives the executing fragment a new mask from its mask, its lanes and an operand. -/
def maskOp (s : State) (a : SReg) (g : LaneMask → LaneMask → LaneMask → LaneMask) : Out State :=
  maskOperand s a fun c s =>
    s.setWave c.wid (c.w.endChain.setFrag c.fid
      { c.f.at' c.after with mask := g c.f.mask c.f.lanes (c.w.maskOf a) })

/-- MASKGET (R110). -/
def execMaskget (d : SReg) (s : State) : Out State :=
  maskOperand s d (fun c s => c.next s (c.w.setMask d c.f.mask)) true

/-- MASKSET (R110). -/
def execMaskset (a : SReg) (s : State) : Out State := maskOp s a (fun _ f x => x &&& f)

/-- MAND (R110). -/
def execMand (a : SReg) (s : State) : Out State := maskOp s a (fun m _ x => m &&& x)

/-- MANDN (R110). -/
def execMandn (a : SReg) (s : State) : Out State := maskOp s a (fun m _ x => m &&& ~~~x)

/-- MOR (R110). -/
def execMor (a : SReg) (s : State) : Out State := maskOp s a (fun m f x => (m ||| x) &&& f)

/-- MPOPC (R110). -/
def execMpopc (d : SReg) (s : State) : Out State :=
  scalarOp s [d.toNat] [] [] fun c s => c.next s (c.w.setE d (BitVec.ofNat 64 (popCount c.f.mask 128)))

end Sys2Proof.Machine
end

