-- ==== Sys2Proof/Machine/Events.lean ====
section
/-! DEFINITION. Barriers, mailboxes, event slots and WAITANY (R168 to R181), and the steps that wake a WAITANY and
fire a deadline. -/

namespace Sys2Proof.Machine

/-! ### Barriers (R168 to R170) -/

/-- BAR: a team-scope release, then the fragment parks; it may complete the barrier (R168). -/
def execBar (s : State) : Out State :=
  withEnd s fun c => (c.wait (s.release (c.route s) 1 (.bar c.w.team)) c.w .bar).checkBarrier c.w.team

/-- A named barrier of a team. -/
def Team.nbar (t : Team) (k : Nat) : NBar := t.nbars.getD k { phase := 0, open? := none }

/-- One arrival at a named barrier whose open phase has count c: the barrier after it, and whether the phase
completed (R170). -/
def NBar.arrive (b : NBar) (c : Nat) : NBar × Bool :=
  let n := match b.open? with
    | some x => x.2 + 1
    | none => 1
  if n = c then ({ phase := (b.phase + 1) % 65536, open? := none }, true)
  else ({ b with open? := some (c, n) }, false)

/-- NBAR.ARV (R170). -/
def execNbarArv (a : SReg) (k : BitVec 4) (s : State) : Out State :=
  scalarOp s [] [a.toNat] [] fun c s =>
    let n := (c.w.s a).toNat
    let b := c.t.nbar k.toNat
    if n == 0 || decide (32 < n) || b.open?.any (fun x => x.1 != n) then c.raise s Cause.barbad 0
    else
      let s := s.release (c.route s) 1 (.phase c.w.team k.toNat b.phase)
      let r := b.arrive n
      let s := c.next s { c.w with nbarRec := setAt c.w.nbarRec k.toNat (some b.phase) }
      let s := s.modTeam c.w.team (fun t => { t with nbars := setAt t.nbars k.toNat r.1 })
      if r.2 then
        c.t.waves.foldl (fun s i => s.modWave i
          (fun w => w.markWhere (fun x => x.kind == 1 && x.arg.toNat == k.toNat))) s
      else s

/-- The phase that NBAR.WT waits for: the wave's recorded one, else the open one (R170). -/
def Wave.nbarPhase (w : Wave) (b : NBar) (k : Nat) : Option Nat :=
  match w.nbarRec.getD k none with
  | some p => some p
  | none => b.open?.map (fun _ => b.phase)

/-- Phase q of a named barrier has not completed. -/
def NBar.waits (b : NBar) (q : Nat) : Bool := b.phase == q && b.open?.isSome

/-- NBAR.WT (R170): a fragment that was parked for a phase goes on when that phase has completed. Without a wait too the
record is cleared and the acquire performed (log 64). -/
def execNbarWt (k : BitVec 4) (s : State) : Out State :=
  withEnd s fun c =>
    let b := c.t.nbar k.toNat
    let q := match c.f.park with
      | .nbar _ p => some p
      | _ => c.w.nbarPhase b k.toNat
    match q with
    | some p =>
      if b.waits p then c.wait s c.w (.nbar k p)
      else c.next (s.acquire (c.route s) 1 [.phase c.w.team k.toNat p]) { c.w with nbarRec := setAt c.w.nbarRec k.toNat none }
    | none => c.next (s.acquire (c.route s) 1 []) { c.w with nbarRec := setAt c.w.nbarRec k.toNat none }

/-! ### Mailboxes (R171 to R173) -/

/-- The running or saved wave that a handle names on a die of issue (R171). -/
def State.byHandle (s : State) (die : Nat) (h : BitVec 24) : Option Nat :=
  (s.waves.find? (fun w => w.2.handle == h && w.2.issueDie == die && w.2.life != .ended)).map Prod.fst

/-- A token enters a slot's counter, with the scope of the release it carries, 0 for none (R172, R180). -/
def Wave.token (w : Wave) (k : Nat) (scope : BitVec 3) : Wave :=
  let n := w.count k
  if n = 255 then { w with evovf := true }
  else
    let old := w.tokScope.getD k 0
    let w := { w with
      counts := setAt w.counts k (n + 1)
      tokScope := setAt w.tokScope k (if old.toNat < scope.toNat then scope else old) }
    if (w.bind k).kind = 4 then w.setPending k true else w

/-- MBX.SEND and MBX.SEND.rel (R173): die scope when the target runs on the sender's present die, else package
scope. -/
def mbxSend (s : State) (a : SReg) (k : BitVec 4) (rel : Bool) : Out State :=
  scalarOp s [] [a.toNat] [] fun c s =>
    let target := s.byHandle c.w.issueDie ((c.w.s a).extractLsb' 0 24)
    let near := target.any (fun i => (TabOps.find? s.waves i).any (fun w => w.life == .running && w.die == c.w.die))
    let scope : BitVec 3 := if near then 4 else 5
    let s := if rel then s.release (c.route s) scope.toNat ((target.map (fun i => Sync.token i k.toNat)).getD .none) else s
    match target with
    | none => c.raise s Cause.mbxbad 0
    | some i => (c.next s c.w).modWave i (fun w => w.token k.toNat (if rel then scope else 0))

/-- MBX.SEND (R173). -/
def execMbxSend (a : SReg) (k : BitVec 4) (s : State) : Out State := mbxSend s a k false

/-- MBX.SEND.rel (R173). -/
def execMbxSendRel (a : SReg) (k : BitVec 4) (s : State) : Out State := mbxSend s a k true

/-! ### Binding (R174, R175) -/

/-- The fields of a source descriptor are legal; an uninitialised circular buffer is EVBAD too (R174). -/
def bindOk (a : Word) (t : Team) : Bool :=
  match bits a 63 60 with
  | 0 | 4 | 5 => bits a 59 0 == 0
  | 1 => bits a 59 4 == 0
  | 2 => bits a 59 18 == 0
  | 3 => bits a 59 3 == 0 && (t.cb (bits a 2 0)).isSome
  | 6 => bits a 59 32 == 0
  | _ => false

/-- A slot is pending as soon as it is bound (R175). -/
def bindPending (a : Word) (k : Nat) (w : Wave) (t : Team) : Bool :=
  match bits a 63 60 with
  | 2 => serialLe (a.extractLsb' 0 16) (w.batch (bits a 17 16)).dn
  | 3 => (t.cb (bits a 2 0)).any (fun b => b.com != b.rel)
  | 4 => w.count k != 0
  | 6 => bits a 31 0 == 0
  | _ => false

/-- The binding that a descriptor gives. -/
def bindingOf (a : Word) (t : Team) (now : Word) (pending : Bool) : Binding :=
  let kind := bits a 63 60
  { kind := BitVec.ofNat 4 kind
    cls := if kind = 2 then BitVec.ofNat 2 (bits a 17 16) else 0
    arg := if kind = 6 then 0 else a.extractLsb' 0 16
    stage := if kind = 3 then ((t.cb (bits a 2 0)).map Cb.rel).getD 0 else 0
    armed := !pending
    deadline := if kind = 6 then some (now + BitVec.ofNat 64 (bits a 31 0)) else none }

/-- The handler address that an EVBIND gives (R87). -/
def Ctx.handler (c : Ctx) (o : BitVec 15) : Word := if o = 0 then 0 else c.target (o.signExtend 64)

/-- EVBIND (R174, R175). A handler address that is no multiple of 4 raises ILLOP, before any check of registers (R87,
R94). -/
def execEvbind (k : BitVec 4) (a : SReg) (o : BitVec 15) (s : State) : Out State :=
  withEnd s fun c =>
    if (c.handler o).extractLsb' 0 2 ≠ 0 then c.raise s Cause.illop 0
    else c.scalar s [] [a.toNat] [] fun c s =>
    let v := c.w.s a
    let handler := c.handler o
    if !bindOk v c.t then c.raise s Cause.evbad 0
    else
      let p := bindPending v k.toNat c.w c.t
      let w := { c.w with
        binds := setAt c.w.binds k.toNat (bindingOf v c.t (s.cycleOf c.w) p)
        evv := setAt c.w.evv k.toNat handler }
      c.next s (w.setPending k.toNat p)

/-! ### Waiting (R176 to R180) -/

/-- The lowest pending slot of a set. -/
def Wave.firstPending (w : Wave) (m : BitVec 16) : Option Nat :=
  (List.range 16).find? (fun k => m.getLsbD k && w.evpend.getLsbD k)

/-- A slot taken: a mailbox gives up one token, any other slot its pending bit (R177). -/
def Wave.take (w : Wave) (k : Nat) : Wave :=
  if (w.bind k).kind = 4 then
    let n := w.count k - 1
    let w := { w with
      counts := setAt w.counts k n
      tokScope := if n = 0 then setAt w.tokScope k 0 else w.tokScope }
    w.setPending k (n != 0)
  else w.setPending k false

/-- The wave itself bound the commit that filled the stage of a buffer which a slot watches (R243, R299). -/
def Team.fills (t : Team) (wid : Nat) (b : Binding) : Bool :=
  (t.cb b.arg.toNat).any (fun c => TabOps.find? c.filled b.stage.toNat == some wid)

/-- The scope of the acquire that taking a slot performs; none for a deadline. A stage is acquired at team scope, as CBWAIT
does, and, by the wave that bound its commit, at system scope (R180, R243, R300). -/
def Wave.takeScope (w : Wave) (t : Team) (wid k : Nat) : Option Nat :=
  let b := w.bind k
  match b.kind.toNat with
  | 1 => some 1
  | 2 => if b.cls = 2 then none else some 6
  | 3 => some (if t.fills wid b then 6 else 1)
  | 4 => if w.tokScope.getD k 0 = 0 then none else some (w.tokScope.getD k 0).toNat
  | 5 => some 6
  | _ => none

/-- What that acquire pairs with: the phase before the barrier's present one, a batch, a stage, the slot's tokens, or the
wave's calls (R180). -/
def Wave.takeKeys (w : Wave) (t : Team) (wid k : Nat) : List Sync :=
  let b := w.bind k
  match b.kind.toNat with
  | 1 => [.phase w.team b.arg.toNat (((t.nbars.getD b.arg.toNat { phase := 0, open? := none }).phase + 65535) % 65536)]
  | 2 => [.batch wid b.cls.toNat b.arg]
  | 3 => [.stage w.team b.arg.toNat b.stage]
  | 4 => [.token wid k]
  | 5 => [.calls wid]
  | _ => []

/-- A poisoned retirement that waiting for MTX batch n observes (R311). -/
def Wave.tileSeen (w : Wave) (n : BitVec 16) : Bool := w.tileBad.any (fun m => serialLe m n)

/-- The wave with those retirements observed. -/
def Wave.tileObserved (w : Wave) (n : BitVec 16) : Wave :=
  { w with tileBad := w.tileBad.filter (fun m => !serialLe m n) }

/-- The executing instruction observes a poisoned retirement: INTEG after its acquire (R311). -/
def Ctx.seeTile (c : Ctx) (s : State) (n : BitVec 16) : State :=
  (s.modWave c.wid (fun w => w.tileObserved n)).raiseAt c.wid c.fid c.ilen Cause.integ 0 false

/-- A fragment of a wave takes slot k at a WAITANY (R177): d := k, the acquire, then the handler, at whose entry all latches
are invalid (R82), or the next instruction; a slot that observes a poisoned retirement raises INTEG and stays pending (R311). -/
def State.wake (s : State) (wid fid : Nat) (w : Wave) (f : Fragment) (d : SReg) (len k : Nat) : State :=
  let b := w.bind k
  if b.kind = 2 ∧ b.cls = 1 ∧ w.tileSeen b.arg then
    match TabOps.find? s.teams w.team, TabOps.find? s.grids w.grid with
    | some t, some g => ((s.acquire (s.routeOf wid w t g) 6 [.batch wid 1 b.arg]).modWave wid
        (fun w => w.tileObserved b.arg)).raiseAt wid fid len Cause.integ 0 false
    | _, _ => s
  else
  let handler := w.evv.getD k 0
  let v := (w.take k).setE d (BitVec.ofNat 64 k)
  let v := if handler ≠ 0 then v.endChain else s.endChainFor wid fid v
  let pc := if handler ≠ 0 then handler else f.pc + BitVec.ofNat 64 len
  let s' := s.setWave wid (v.setFrag fid (f.at' pc))
  match TabOps.find? s.teams w.team, TabOps.find? s.grids w.grid with
  | some t, some g =>
    (match w.takeScope t wid k with
     | some x => s'.acquire (s.routeOf wid w t g) x (w.takeKeys t wid k)
     | none => s')
  | _, _ => s'

/-- WAITANY (R177). -/
def execWaitany (d a : SReg) (s : State) : Out State :=
  scalarOp s [d.toNat] [a.toNat] [] fun c s =>
    let m := (c.w.s a).extractLsb' 0 16
    let e := m &&& c.w.evmask
    if (List.range 16).all (fun k => !e.getLsbD k || (c.w.bind k).kind == 0) then c.raise s Cause.evbad 0
    else match c.w.firstPending e with
      | some k => s.wake c.wid c.fid c.w c.f d c.ilen k
      | none => c.wait s c.w (.waitany d m)

/-- The oldest fragment parked in WAITANY whose set includes slot k and that has not woken (R179). -/
def Wave.waiter (w : Wave) (k : Nat) : Option (Nat × Fragment × SReg) :=
  (w.live.filterMap (fun f =>
    match f.2.park with
    | .waitany d m => if m.getLsbD k then some (f.1, f.2, d) else none
    | _ => none)).foldl (fun best x =>
      match best with
      | none => some x
      | some b => if x.2.1.older b.2.1 then some x else some b) none

/-- The slots that can wake a WAITANY in this cycle: EVMASK, without those that an EVMASK of the same cycle set before
their event came (R178, R182). -/
def State.eligible (s : State) (w : Wave) : BitVec 16 :=
  if s.cycleOf w = w.maskAt then w.evmask &&& ~~~w.maskNew else w.evmask

/-- Slot k offered to the waiting fragments: one for each token of a mailbox, else one (R179). -/
def State.offer (s : State) (wid k : Nat) : Nat → State
  | 0 => s
  | n + 1 =>
    match TabOps.find? s.waves wid with
    | none => s
    | some w =>
      if w.evpend.getLsbD k && (s.eligible w).getLsbD k then
        match w.waiter k with
        | some (fid, f, d) => (s.wake wid fid w f d f.plen k).offer wid k n
        | none => s
      else s

/-- WAITANY_WAKE: every pending eligible slot of a running wave that is not stopped for a save, in rising order, is offered
(R178, R179, R183, R353). A chain of another fragment goes on, unless a handler is entered (R82, R162). -/
def execWaitanyWake (wid : Nat) (s : State) : Out State :=
  match TabOps.find? s.waves wid with
  | none => .next s
  | some w =>
    if w.life = .running && w.stopAt.isNone then .next ((List.range 16).foldl (fun s k => s.offer wid k 8) s)
    else .next s

/-- A deadline has been reached: CYCLE is at or past it (R175). -/
def reached (now deadline : Word) : Bool := decide ((now - deadline).toNat < 2 ^ 63)

/-- DEADLINE_FIRE (R175). -/
def execDeadlineFire (wid : Nat) (k : BitVec 4) (s : State) : Out State :=
  match TabOps.find? s.waves wid with
  | none => .next s
  | some w =>
    match (w.bind k.toNat).deadline with
    | some d =>
      if w.life = .running && (w.bind k.toNat).armed && reached (s.timeOf w) d then
        .next (s.setWave wid (w.markSlot k.toNat))
      else .next s
    | none => .next s

/-! ### EVMASK, EVPOLL, EVCLR (R181) -/

/-- EVMASK (R181); the slots that it sets are eligible in the next cycle where their event comes in this one (R182). -/
def execEvmask (d a : SReg) (s : State) : Out State :=
  scalarOp s [d.toNat] [a.toNat] [] fun c s =>
    let m := (c.w.s a).extractLsb' 0 16
    c.next s { c.w.setE d (c.w.evmask.zeroExtend 64) with
      evmask := m
      maskNew := m &&& ~~~c.w.evmask &&& ~~~c.w.evpend
      maskAt := s.cycleOf c.w }

/-- The status word of EVPOLL (R181). -/
def Wave.pollWord (w : Wave) : Word :=
  w.handle ++ (0 : BitVec 7) ++ BitVec.ofBool w.evovf ++ w.evmask ++ w.evpend

/-- EVPOLL (R181). -/
def execEvpoll (d : SReg) (s : State) : Out State :=
  scalarOp s [d.toNat] [] [] fun c s => c.next s (c.w.setE d c.w.pollWord)

/-- A slot cleared: no pending event, no token (R181). -/
def Wave.clearSlot (w : Wave) (k : Nat) : Wave :=
  { w with counts := setAt w.counts k 0, tokScope := setAt w.tokScope k 0 }.setPending k false

/-- EVCLR (R181). -/
def execEvclr (a : SReg) (s : State) : Out State :=
  scalarOp s [] [a.toNat] [] fun c s =>
    let v := c.w.s a
    let w := (List.range 16).foldl (fun w k => if bit v k then w.clearSlot k else w) c.w
    c.next s { w with evovf := w.evovf && !bit v 16 }

end Sys2Proof.Machine
end

