-- ==== Sys2Proof/Machine/Access.lean ====
section
/-! DEFINITION. What the lanes of a memory instruction access: flat addresses (R141), buffer records (R207 to R209,
R215) and scratchpads (R193, R218); the causes found before anything happens (R144, R217), element types (R80, R142),
and the grade check of a store (R265). -/

namespace Sys2Proof.Machine

/-! ### Accesses of lanes -/

/-- What one lane accesses: its element's parts in ascending byte order, the page-list entries read to find it, the
scales its elements use (R216), whether OOBZ drops it (R207), whether its address is known, which it is not where its
page-list entry could not be read, the causes it raises with the address of the first byte that faults (R343), and
whether XLATE or PERM comes from a translation. -/
structure LaneAcc where
  lane   : Nat
  va     : Word
  known  : Bool := true
  parts  : List Part
  aux    : List Part
  scales : List Part
  drop   : Bool
  causes : Word
  info   : Option Word
  walked : Bool
  deriving DecidableEq, Repr

/-- An access of no lane's own that raises nothing. -/
def LaneAcc.start (lane : Nat) (va : Word) : LaneAcc :=
  { lane := lane, va := va, parts := [], aux := [], scales := [], drop := false, causes := 0, info := none, walked := false }

/-- One more piece, or its fault; the first fault's address stays. -/
def LaneAcc.piece (s : State) (at' vd : Nat) (acc : Access) (a : LaneAcc) (p : Word × Nat) : LaneAcc :=
  match s.translate at' vd p.1 acc with
  | .ok (leaf, pa) => { a with parts := a.parts ++ [{ lane := a.lane, va := p.1, pa := pa, n := p.2, leaf := leaf }] }
  | .error e =>
    { a with causes := a.causes ||| Cause.ofMem e, info := if a.info.isSome then a.info else some p.1,
             walked := a.walked || e != .cxlDown }

/-- The access of n bytes at an address, split at page boundaries. -/
def State.locate (s : State) (at' vd : Nat) (acc : Access) (lane : Nat) (va : Word) (n : Nat) : LaneAcc :=
  (pieces va n).foldl (LaneAcc.piece s at' vd acc) (LaneAcc.start lane va)

/-- The causes of a list of accesses. -/
def causesOf (as : List LaneAcc) : Word := as.foldl (fun c a => c ||| a.causes) 0

/-- The information word of a list of accesses: the lowest lane's that has one. -/
def infoOf (as : List LaneAcc) : Word := (as.findSome? (fun a => a.info)).getD 0

/-- Some cause of a list of accesses comes from a translation. -/
def walkedOf (as : List LaneAcc) : Bool := as.any (fun a => a.walked)

/-- What the translations of the lanes leave that fail (R204, R259). -/
def State.walkTraces (s : State) (r : Route) (as : List LaneAcc) : State :=
  as.foldl (fun s a => if a.walked then s.walkTrace r.at' r.vd a.causes (a.info.getD 0) else s) s

/-- All data parts of a list of accesses. -/
def partsOf (as : List LaneAcc) : List Part := as.flatMap (fun a => a.parts)

/-- All parts that were read beside the data. -/
def auxOf (as : List LaneAcc) : List Part := as.flatMap (fun a => a.aux ++ a.scales)

/-- Both. -/
def allParts (as : List LaneAcc) : List Part := auxOf as ++ partsOf as

/-! ### Types (R80, R142) -/

/-- The bytes of a TYPE; the default is b32. -/
def typeSize (t : BitVec 4) : Nat :=
  match t.toNat with
  | 1 | 2 | 9 => 1
  | 3 | 4 | 10 => 2
  | 7 | 8 | 12 => 8
  | _ => 4

/-- A TYPE that sign-extends. -/
def typeSigned (t : BitVec 4) : Bool := t == 1 || t == 3 || t == 5 || t == 7

/-- The element as a register holds it: low and high words (R142). -/
def extend (t : BitVec 4) (v : Nat) : Lane × Lane :=
  let n := typeSize t
  let x : Word := if typeSigned t then BitVec.ofInt 64 (signedOf (8 * n) v) else BitVec.ofNat 64 v
  (x.extractLsb' 0 32, x.extractLsb' 32 32)

/-! ### Bases -/

/-- The lane offset of a displacement. -/
def dispOf (m : MemWord) : Word := m.disp.signExtend 64

/-- The scalar register of a base code. -/
def baseS (a : Src) : SReg := BitVec.ofNat 6 (a.toNat - 128)

/-- A base code that names a vector register. -/
def baseIsV (a : Src) : Bool := decide (a.toNat < 128)

/-- The lanes of a 64-bit V base, of a 32-bit one. -/
def Wave.base64 (w : Wave) (a : Src) (l : Nat) : Word := lane64 (w.v a.toNat, w.v (a.toNat + 1)) l
def Wave.base32 (w : Wave) (a : Src) (l : Nat) : Word := ((w.v a.toNat).lane l).zeroExtend 64

/-- ea(l) of VLDF and VSTF for elements of n bytes (R141). -/
def Wave.flatAddr (w : Wave) (a : Src) (m : MemWord) (n l : Nat) : Word :=
  if baseIsV a then w.base64 a l + dispOf m else w.s (baseS a) + dispOf m + BitVec.ofNat 64 (l * n)

/-- eo(l) of a record access, x(l) of a scratchpad access (R215, R218). -/
def Wave.offset (w : Wave) (a : Src) (m : MemWord) (n l : Nat) : Word :=
  if baseIsV a then w.base32 a l + dispOf m else w.s (baseS a) + dispOf m + BitVec.ofNat 64 (l * n)

/-- The poison of the base lanes; `pair` for a 64-bit V base. -/
def Wave.basePoison (w : Wave) (a : Src) (pair : Bool) : LaneMask :=
  if baseIsV a then (w.v a.toNat).poison ||| (if pair then (w.v (a.toNat + 1)).poison else 0) else 0

/-- The registers that a base names. -/
def baseRegs (a : Src) (pair : Bool) : List Nat × List Nat :=
  if baseIsV a then ([], if pair then [a.toNat, a.toNat + 1] else [a.toNat]) else ([a.toNat - 128], [])

/-! ### Reads of words that no lane holds -/

/-- n bytes at an address as a load at wave scope finds them, with the access; the bytes of a bad line are free. -/
def State.peek (s : State) (r : Route) (va : Word) (n : Nat) : LaneAcc × List Byte :=
  let a := s.locate r.at' r.vd .load 0 va n
  (a, a.parts.flatMap (s.partBytes r false (s.badLines r false a.parts)))

/-- An access found uncorrectable data. -/
def State.peekBad (s : State) (r : Route) (ps : List Part) : Bool := !(s.badLines r false ps).isEmpty

/-! ### Buffer records (R207 to R209) -/

namespace BufRec

abbrev Words := List Word

def word (r : Words) (i : Nat) : Word := r.getD i 0
def base (r : Words) : Word := word r 0
def efmt (r : Words) : Nat := bits (word r 1) 63 60
def mfmt (r : Words) : Nat := bits (word r 1) 59 56
def conv (r : Words) : Nat := bits (word r 1) 55 52
def extent (r : Words) : Nat := bits (word r 1) 47 0
def sbase (r : Words) : Word := word r 2
def s1 (r : Words) : Nat := bits (word r 3) 63 58
def s2 (r : Words) : Nat := bits (word r 3) 57 54
def skind (r : Words) : Nat := bits (word r 3) 53 52
def pgsz (r : Words) : Nat := bits (word r 3) 51 48
def ilv (r : Words) : Nat := bits (word r 3) 47 44
def plbase (r : Words) : Word := word r 4 &&& ~~~7
def oobz (r : Words) : Bool := bit (word r 4) 2
def ro (r : Words) : Bool := bit (word r 4) 1
def valid (r : Words) : Bool := bit (word r 4) 0

/-- The record may be used (R207). -/
def ok (r : Words) : Bool :=
  valid r && bits (word r 1) 51 48 == 0 && bits (word r 3) 43 0 == 0 && skind r != 3
    && decide (pgsz r ≤ 3) && decide (ilv r ≤ 1)

/-- The bytes of a page of the list. -/
def pageSize (r : Words) : Nat := if pgsz r = 1 then 2 ^ 12 else if pgsz r = 2 then 2 ^ 16 else 2 ^ 21

end BufRec

/-- The key of a record in a record cache: device and address. -/
def recKey (vd : Nat) (va : Word) : Nat := vd * 2 ^ 64 + va.toNat

/-- The address of record N of a grid's table. -/
def Packet.recAddr (p : Packet) (n : Nat) : Word := p.recA + BitVec.ofNat 64 (40 * n)

/-- What a record read gives: the causes and address of a failure, or the record. -/
abbrev RecRead := Except (Word × Word) BufRec.Words

/-- The route of a read past the L1: no core's. -/
def Route.past (r : Route) : Route := { r with core := 100000, fused := [] }

/-- The record as memory holds it: read from its homes, past the L1 (R209). An uncorrectable record raises INTEG as
any word that cannot carry poison (log 16). -/
def State.recMemory (s : State) (r : Route) (va : Word) : RecRead :=
  let a := s.locate r.at' r.vd .load 0 va 40
  if a.causes ≠ 0 then .error (a.causes, a.info.getD 0)
  else if !(s.badLines r.past false a.parts).isEmpty then .error (Cause.integ, 0)
  else
    let bs := a.parts.flatMap (fun p => s.homeSeen r.shadow p.pa p.n)
    .ok ((List.range 5).map (fun i => BitVec.ofNat 64 (leValue ((bs.drop (8 * i)).take 8))))

/-- The core's copy of a record; a replay, whose stores stand apart, takes none (R209, R241). -/
def State.recCached (s : State) (r : Route) (va : Word) : Option BufRec.Words :=
  if r.shadow.isSome then none else TabOps.find? (s.core r.own).recCache (recKey r.vd va)

/-- Record N as an access reads it: the core's copy, or memory when there is none; while the two differ, either one
(R209, log 5). An index outside the table, and a record that may not be used, raise RECBAD (R207). -/
def State.record (s : State) (r : Route) (g : Grid) (n : Nat) : RecRead :=
  let va := g.packet.recAddr n
  if g.packet.recN ≤ n then .error (Cause.recbad, 0)
  else
    let fresh := s.recMemory r va
    let got : RecRead :=
      match s.recCached r va, fresh with
      | none, x => x
      | some ws, .ok xs => if ws = xs ∨ Config.freeChoice (Nat.pair s.free va.toNat) % 2 = 0 then .ok ws else .ok xs
      | some ws, .error e => if Config.freeChoice (Nat.pair s.free va.toNat) % 2 = 0 then .ok ws else .error e
    match got with
    | .ok ws => if BufRec.ok ws then .ok ws else .error (Cause.recbad, 0)
    | e => e

/-- The parts of record N that an access reads from memory: none where the core has its copy (R209). -/
def State.recParts (s : State) (r : Route) (g : Grid) (n : Nat) : List Part :=
  if g.packet.recN ≤ n || (s.recCached r (g.packet.recAddr n)).isSome then []
  else (s.locate r.at' r.vd .load 0 (g.packet.recAddr n) 40).parts

/-- A record put into a record cache of 64 entries: a full one gives up another, which one is free (R209, log 38). -/
def recPut (free : Nat) (t : Tab BufRec.Words) (k : Nat) (ws : BufRec.Words) : Tab BufRec.Words :=
  let room := if (TabOps.find? t k).isSome || decide (t.length < 64) then t
    else TabOps.drop t ((t.map Prod.fst).getD (Config.freeChoice free % t.length) 0)
  TabOps.put room k ws

/-- The record cache after a read of record N that gave `ws` (R209), with the hits of its fill at the homes (R196). -/
def State.recKeep (s : State) (r : Route) (g : Grid) (n : Nat) (ws : BufRec.Words) : State :=
  let c := s.core r.own
  let k := recKey r.vd (g.packet.recAddr n)
  let s := s.homeReads r.vd (s.recParts r g n)
  if r.shadow.isSome then s
  else { s.setCore r.own { c with recCache := recPut s.free c.recCache k ws } with free := s.free + 1 }

/-- The bytes of a logical range by page of the list: page index, offset, length. -/
def recChunks (size eo n : Nat) : List (Nat × Nat × Nat) :=
  let room := size - eo % size
  if n ≤ room then [(eo / size, eo % size, n)] else [(eo / size, eo % size, room), (eo / size + 1, 0, n - room)]

/-- One chunk of a paged access whose first page is `first`: the page-list entry, read as a load, and the bytes behind it
(R208). The lane's address is that of its first byte. -/
def LaneAcc.chunk (s : State) (r : Route) (w : BufRec.Words) (acc : Access) (first : Nat) (a : LaneAcc)
    (c : Nat × Nat × Nat) : LaneAcc :=
  let first := c.1 == first
  let e := s.peek r (BufRec.plbase w + BitVec.ofNat 64 (8 * c.1)) 8
  let page := BitVec.ofNat 64 (leValue e.2)
  let a := { a with aux := a.aux ++ e.1.parts, causes := a.causes ||| e.1.causes,
                    info := if a.info.isSome then a.info else e.1.info, walked := a.walked || e.1.walked }
  if e.1.causes ≠ 0 then a
  else if s.peekBad r e.1.parts then { a with causes := a.causes ||| Cause.integ }
  else if page.toNat % BufRec.pageSize w ≠ 0 then { a with causes := a.causes ||| Cause.recrange }
  else
    let b := (pieces (page + BitVec.ofNat 64 c.2.1) c.2.2).foldl (LaneAcc.piece s r.at' r.vd acc) a
    if first then { b with va := page + BitVec.ofNat 64 c.2.1, known := true } else b

/-- A store or an atomic through a read-only record raises PERM with whatever else its lane raises; a lane that OOBZ drops
raises no cause (R48, R215, R217). -/
def BufRec.readOnly (w : BufRec.Words) (acc : Access) (a : LaneAcc) : LaneAcc :=
  if BufRec.ro w && acc != .load then
    { a with causes := a.causes ||| Cause.perm, info := if a.info.isSome then a.info else some a.va }
  else a

/-- The access of one lane through a record: n bytes at logical offset eo (R208), with the rules for a read-only
record (R215) and a bank-striped one (R322). -/
def State.recAccess (s : State) (r : Route) (w : BufRec.Words) (acc : Access) (lane : Nat) (eo : Word) (n : Nat) :
    LaneAcc :=
  let a := LaneAcc.start lane (BufRec.base w + eo)
  if BufRec.extent w < eo.toNat + n then
    if BufRec.oobz w then { a with drop := true }
    else BufRec.readOnly w acc { a with causes := Cause.recrange, known := BufRec.pgsz w == 0 }
  else
    let b :=
      if BufRec.pgsz w = 0 then (pieces a.va n).foldl (LaneAcc.piece s r.at' r.vd acc) a
      else (recChunks (BufRec.pageSize w) eo.toNat n).foldl
        (LaneAcc.chunk s r w acc (eo.toNat / BufRec.pageSize w)) { a with known := false }
    let b := BufRec.readOnly w acc b
    if BufRec.ilv w = 1 ∧ b.parts.any (fun p => !p.leaf.ba) then { b with causes := b.causes ||| Cause.recbad } else b

/-! ### Scratchpads (R193) -/

/-- The team that a window offset reaches, and the byte in its scratchpad; `own` for sp. -/
def State.spPlace (s : State) (tid : Nat) (t : Team) (g : Grid) (window : Bool) (x : Nat) : Option (Nat × Nat) :=
  if !window then (if x < t.spSize then some (tid, x) else none)
  else if t.spSize = 0 then none
  else
    let o := x / t.spSize
    match TabOps.find? s.nbs t.nb with
    | none => none
    | some n =>
      match n.teams.find? (fun i => (TabOps.find? s.teams i).any
          (fun u => g.packet.map.getD u.mapSlot 48 == o && u.life != .retired)) with
      | some i => some (i, x % t.spSize)
      | none => none

/-- The scratchpad bytes of one lane, or the first offset out of range. -/
def State.spBytes (s : State) (tid : Nat) (t : Team) (g : Grid) (window : Bool) (x : Word) :
    Nat → Except Word (List (Nat × Nat))
  | 0 => .ok []
  | n + 1 =>
    match s.spPlace tid t g window x.toNat with
    | none => .error x
    | some p =>
      match s.spBytes tid t g window (x + 1) n with
      | .ok ps => .ok (p :: ps)
      | .error e => .error e

/-- A byte of a scratchpad. -/
def State.spRead (s : State) (p : Nat × Nat) : Byte :=
  match TabOps.find? s.teams p.1 with
  | some t => MemOps.read t.sp p.2
  | none => 0

/-- The tag of the word that holds a scratchpad byte; an unwritten word has the launch grade. -/
def State.spTag (s : State) (p : Nat × Nat) : Grade :=
  match TabOps.find? s.teams p.1 with
  | some t => TabOps.get (((TabOps.find? s.grids t.grid).map (fun g => g.launchG)).getD 0) t.spTag (p.2 / 4)
  | none => 0

/-- The poison bit of the word that holds a scratchpad byte. -/
def State.spPoison (s : State) (p : Nat × Nat) : Bool :=
  match TabOps.find? s.teams p.1 with
  | some t => t.spPois.contains (p.2 / 4)
  | none => false

/-- A byte of a scratchpad written, without its word's tag. -/
def State.spWrite (s : State) (p : Nat × Nat) (b : Byte) : State :=
  s.modTeam p.1 (fun t => { t with sp := MemOps.write t.sp p.2 b })

/-- A word of a scratchpad after a store of some of its bytes: all four set the tag and clear the poison, fewer
lower the tag (R193). -/
def State.spMark (s : State) (tid word : Nat) (whole : Bool) (tag : Grade) : State :=
  let t' := if whole then tag else Grade.min (s.spTag (tid, word * 4)) tag
  s.modTeam tid (fun t => { t with
    spTag := TabOps.put t.spTag word t'
    spPois := if whole then t.spPois.filter (· != word) else t.spPois })

/-- Bytes stored to scratchpad places, with the tag. -/
def State.spStore (s : State) (ps : List (Nat × Nat)) (bs : List Byte) (tag : Grade) : State :=
  let s := (ps.zip bs).foldl (fun s x => s.spWrite x.1 x.2) s
  ((ps.map (fun p => (p.1, p.2 / 4))).eraseDups).foldl
    (fun s w => s.spMark w.1 w.2 (decide (4 ≤ (ps.filter (fun p => (p.1, p.2 / 4) == w)).length)) tag) s

/-! ### The grade check of a store (R265) -/

/-- What the check decides: store, store and count a dilution, or GRADE. -/
inductive GradeCheck where
  | pass | dilute | strict
  deriving DecidableEq, Repr

/-- The check of a value with tag t against the pages of the parts stored to. -/
def gradeCheck (t : Grade) (ps : List Part) : GradeCheck :=
  let weak := ps.filter (fun p => decide (t.toNat < p.leaf.grade.toNat))
  if weak.isEmpty then .pass else if weak.any (fun p => !p.leaf.lax) then .strict else .dilute

/-- Parts with the bytes that a store gives them. -/
def spreadBytes : List Part → List Byte → List (Nat × List Byte)
  | [], _ => []
  | p :: ps, bs => (p.pa, bs.take p.n) :: spreadBytes ps (bs.drop p.n)

/-- Pieces of a store by line: (line, offset, bytes). -/
def linePieces (ws : List (Nat × List Byte)) : List (Nat × Nat × List Byte) :=
  ws.flatMap (fun w => splitLines w.1 w.2 (w.2.length + 1))

/-- The lines that pieces touch, each with the mask and the data that they give it; a later piece wins a byte that two
pieces write. -/
def lineMerges (ps : List (Nat × Nat × List Byte)) : List (Nat × BitVec 128 × List Byte) :=
  ((ps.map (fun p => p.1)).eraseDups).map fun line =>
    let mine := ps.filter (fun p => p.1 == line)
    (line, mine.foldl (fun m p => m ||| ones p.2.1 p.2.2.length) 0,
      mine.foldl (fun d p => putBytes d p.2.1 p.2.2) (List.replicate 128 0))

/-- The bytes of one instruction stored, one request for each line (R197). -/
def State.storeAll (s : State) (r : Route) (scope hint : Nat) (ws : List (Nat × List Byte)) : State :=
  (lineMerges (linePieces ws)).foldl (fun s x => s.storeLine r scope hint x.1 x.2.1 x.2.2) s

/-- The translations of an instruction's parts are kept (R205). -/
def State.keepParts (s : State) (r : Route) (ps : List Part) : State :=
  ps.foldl (fun s p => s.keep r.at' r.vd p.va) s

/-- A wave as the state holds it now, or as it was, with GRLIM's grade in force (R279), and the status words that the
instruction has read no longer new (R243). -/
def State.waveNow (s : State) (c : Ctx) : Wave :=
  { ((TabOps.find? s.waves c.wid).getD c.w).applyEg with doneRegs := c.w.doneRegs }

end Sys2Proof.Machine
end

