-- ==== Sys2Proof/Machine/Par.lean ====
section
/-! DEFINITION. SPLIT, JOIN, YIELD, ENDW and CARVE (R157 to R167), and the completion of a CARVE. -/

namespace Sys2Proof.Machine

/-- The length of the instruction whose first parcel is p (R43, R73). -/
def lengthOf (p : BitVec 16) : Nat := if isDict p then 2 else parcelLen p

/-- The two halves that SPLIT makes of the executing fragment: the first goes on in the skip slot, the second after
it, both in the new record q (R159). -/
def Ctx.divide (c : Ctx) (q slot : Nat) (a : LaneMask) (target skip : Word) : Wave :=
  let r : Rec := { addr := target, expected := c.f.lanes, arrived := 0, call := none, parent := c.f.rec?,
                   first := none, bound := 0 }
  let f1 := { c.f.at' c.after with lanes := c.f.lanes &&& a, mask := c.f.mask &&& a, rec? := some q }
  let f2 := { c.f.at' skip with lanes := c.f.lanes &&& ~~~a, mask := c.f.mask &&& ~~~a, rec? := some q }
  ((c.w.endChain.setRec q (some r)).setFrag c.fid f1).setFrag slot f2

/-- SPLIT (R159). The length of the skip slot, where it goes past it, is read from its first parcel, as a fetch reads. It takes
the lowest free record and the lowest free entry (log 64). -/
def execSplit (a : SReg) (o : BitVec 15) (s : State) : Out State :=
  maskOperand s a fun c s =>
    let m := c.w.maskOf a
    if c.f.lanes &&& m ≠ 0 ∧ c.f.lanes &&& ~~~m = 0 then c.next s c.w
    else match s.fetchParcel c.wid c.w c.g c.after with
    | .error e => c.raiseMem s (Cause.ofMem e) c.after
    | .ok p =>
      let s := s.fetched c.w c.g c.after 2
      let skip := c.after + BitVec.ofNat 64 (lengthOf p)
      if c.f.lanes &&& m = 0 then c.jump s c.w skip
      else match freeSlots c.w.recs, freeSlots c.w.frags with
        | q :: _, i :: _ => s.setWave c.wid (c.divide q i m (c.target (o.signExtend 64)) skip)
        | _, _ => c.raise s Cause.fragfull 0

/-- JOIN issued away from its record's address has no effect (R160); an arrival issues nothing. -/
def execJoin (a : SReg) (s : State) : Out State :=
  scalarOp s [] [a.toNat] [] fun c s => c.next s c.w

/-- YIELD: the fragment forgoes its turn (R166). -/
def execYield (s : State) : Out State :=
  withEnd s fun c => s.setWave c.wid (c.w.endChain.setFrag c.fid { c.f.at' c.after with yielded := true })

/-- ENDW (R157). -/
def execEndw (s : State) : Out State := withEnd s fun c => s.endFragment c.wid c.fid

/-! ### CARVE (R167, R188) -/

/-- The bytes that the registers of n waves take in the unified array (R150). -/
def Packet.regBytes (p : Packet) (n : Nat) : Nat := n * p.nv * (32 * 2 ^ p.widthC) * 4

/-- The bytes that a team takes of its core's unified array (R150). -/
def Team.arrayUse (t : Team) (g : Grid) : Nat := g.packet.regBytes t.waves.length + t.spSize + t.l1x * 1024

/-- The bytes used on a core by its residents but one (R150). -/
def State.arrayUsed (s : State) (key skip : Nat) : Nat :=
  (s.residents key).foldl (fun n t =>
    if t.1 = skip then n
    else match TabOps.find? s.grids t.2.grid with
      | some g => n + t.2.arrayUse g
      | none => n) (768 * 1024)

/-- CARVE: a wave with one fragment releases at team scope and parks (R167, R168). -/
def execCarve (a b : SReg) (s : State) : Out State :=
  scalarOp s [] [a.toNat, b.toNat] [] fun c s =>
    if 1 < c.w.live.length then c.raise s Cause.carvefail 0
    else c.wait (s.release (c.route s) 1 (.bar c.w.team)) c.w (.carve (c.w.s a) (c.w.s b))

/-- A fragment parked at a CARVE. -/
def atCarve : Park → Bool
  | .carve _ _ => true
  | _ => false

/-- The operands of the waves parked at a CARVE. -/
def State.carveArgs (s : State) (t : Team) : List (Word × Word) :=
  (t.waves.filterMap s.waveAt).flatMap (fun w => w.live.filterMap (fun f =>
    match f.2.park with
    | .carve x y => some (x, y)
    | _ => none))

/-- A team shares its neighbourhood with another one (R151, R167). -/
def State.sharesNb (s : State) (t : Team) : Bool :=
  (TabOps.find? s.nbs t.nb).any (fun n => decide (1 < n.teams.length))

/-- The checks of R167 on the values that all waves gave. -/
def State.carveOk (s : State) (tid : Nat) (t : Team) (g : Grid) (args : List (Word × Word)) : Bool :=
  match args with
  | [] => false
  | (x, y) :: _ =>
    let sp := x.toNat
    let l1x := y.toNat
    let used := s.arrayUsed (coreKey t.die t.core) tid
    args.all (fun p => p == (x, y)) && sp % 16 == 0 && l1x % 16 == 0
      && decide (used + g.packet.regBytes t.waves.length + (sp + l1x) * 1024 ≤ 4096 * 1024)
      && !(s.sharesNb t && sp * 1024 != t.spSize)
      && !(g.packet.fuse && l1x != t.l1x)
      && t.cbs.all (fun b => b.all (fun b => decide (b.base + b.nstg * b.size * 128 ≤ sp * 1024)))

/-- The conversion, which takes the highest-numbered ways: bytes below both sizes stay, new bytes read 0 with tag L
and no poison (R167, R188, R193). -/
def State.convert (s : State) (tid : Nat) (t : Team) (sp l1x : Nat) : State :=
  let n := sp * 1024
  let s := s.setTeam tid { t with
    spSize := n
    l1x := l1x
    sp := t.sp.filter (fun c => decide (c.1 < n))
    spTag := t.spTag.filter (fun c => decide (c.1 * 4 < n))
    spPois := t.spPois.filter (fun c => decide (c * 4 < n)) }
  s.shrinkL1 (coreKey t.die t.core)

/-- Every wave parked at a CARVE raises CARVEFAIL. -/
def State.failCarve (s : State) (t : Team) : State :=
  t.waves.foldl (fun s i =>
    match s.waveAt i with
    | some w => w.live.foldl (fun s f =>
        if atCarve f.2.park then s.raiseAt i f.1 f.2.plen Cause.carvefail 0 false else s) s
    | none => s) s

/-- CARVE_COMPLETE: when all waves have arrived, CARVEFAIL in each, or the conversion as soon as every engine
operation of the team has completed (R167). The checks are made again then: that the room is not held meanwhile is the
model's choice (log 64). -/
def execCarveComplete (tid : Nat) (s : State) : Out State :=
  match TabOps.find? s.teams tid with
  | none => .next s
  | some t =>
    match TabOps.find? s.grids t.grid, s.carveArgs t with
    | some g, (x, y) :: rest =>
      if !s.allParked t atCarve then .next s
      else if !s.carveOk tid t g ((x, y) :: rest) then .next (s.failCarve t)
      else if !(s.teamOps tid).isEmpty then .next s
      else
        let s := s.convert tid t x.toNat y.toNat
        match TabOps.find? s.teams tid with
        | some t => .next (s.passBarrier tid t atCarve false)
        | none => .next s
    | _, _ => .next s

end Sys2Proof.Machine
end

