-- ==== Sys2Proof/Machine/VecMem.lean ====
section
/-! DEFINITION. Vector memory instructions: VLDF, VSTF, VLD, VST, VLDS, VSTS and VATOM (R141 to R144, R210 to R220),
with the conversion stage (R216), poison and tags (R264 to R267), and the injection of EARM (R274, R280). -/

namespace Sys2Proof.Machine

/-! ### The common course -/

/-- The active lanes of a mask but those of another. -/
def Ctx.lanesBut (c : Ctx) (bad : LaneMask) : List Nat := laneList c.w.width (c.f.mask &&& ~~~bad)

/-- Causes before anything happens: consumed poison with the rest, or the rest (R48, R144, R217, R273); else the
effect. -/
def Ctx.guard (c : Ctx) (s : State) (poison : LaneMask) (causes info : Word) (walked : Bool) (k : State) : State :=
  if poison &&& c.f.mask ≠ 0 then c.consume s causes info walked
  else if causes ≠ 0 then s.raiseAt c.wid c.fid c.ilen causes info walked
  else k

/-- The checks after decode of a vector memory instruction: pending registers (R292) and BUDGET (R95), the cause that `k`
gets; BUDGET comes with what else is known, which is the poison where the base itself is not allocated (R48, log 22). With
no active lane the instruction accesses nothing and raises no memory cause (R144); that it then performs no acquire or release
of `.acq` or `.rel` either is the model's choice (R212; log 85). -/
def Ctx.vmem (c : Ctx) (s : State) (a : Src) (pair : Bool) (data : List Nat) (poison : LaneMask)
    (k : Ctx → Word → State → State) : State :=
  let b := baseRegs a pair
  let budget := if c.w.budget b.1 (b.2 ++ data) then 0 else Cause.budget
  if !c.w.budget b.1 b.2 || (budget != 0 && c.f.mask == 0) then c.guard s poison budget 0 false s
  else c.scalar s [] b.1 b.2 fun c s => if c.f.mask = 0 then c.next s c.w else k c budget s

/-- The fragment waits for a port of the CXL tier; the instruction goes on when the data come (R351). -/
def Ctx.hold (c : Ctx) (s : State) (p : Nat × Word) : State :=
  s.setWave c.wid (c.w.endChain.setFrag c.fid
    { c.f with park := .cxl p.1 p.2, plen := c.ilen, since := s.cycleOf c.w, waited := p.1 :: c.f.waited })

/-- The first of these parts that a port of the CXL tier serves for which the instruction has not waited: the port, and
the first address (R351). -/
def Ctx.portOf (c : Ctx) (s : State) (r : Route) (wide : Bool) (ps : List Part) : Option (Nat × Word) :=
  ps.findSome? (fun p => ((s.fromCxl r wide p).filter (fun k => !c.f.waited.contains k.1)).map
    (fun k => (k.1, p.va + BitVec.ofNat 64 k.2)))

/-- A load of these parts must wait for a port. -/
def Ctx.holdPort (c : Ctx) (s : State) (wide : Bool) (ps : List Part) : Option (Nat × Word) :=
  c.portOf s (c.route s) wide ps

/-- The same for the lanes of an instruction, lowest first: what a lane reads beside its data is read at wave scope;
`data` says that the data are loaded too (R343, R351). -/
def Ctx.holdLanes (c : Ctx) (s : State) (wide data : Bool) (as : List LaneAcc) : Option (Nat × Word) :=
  as.findSome? (fun a => (c.holdPort s false (a.aux ++ a.scales)).orElse
    (fun _ => if data then c.holdPort s wide a.parts else none))

/-- The same for the record that an instruction reads, past the L1 (R209, R351). -/
def Ctx.holdRecord (c : Ctx) (s : State) (n : Nat) : Option (Nat × Word) :=
  c.portOf s (c.route s).past false (s.recParts (c.route s) c.g n)

/-- A record read that failed: where it was uncorrectable, the records of its lines, and INTEG as of a consumed word
(R267, R269, log 16); else its causes, with those found before and a poisoned lane's INTEG. -/
def Ctx.recFail (c : Ctx) (s : State) (n : Nat) (more : Word) (poison : LaneMask) (e : Word × Word) : State :=
  let r := c.route s
  if bit e.1 10 then
    let ps := s.recParts r c.g n
    c.consume ((s.homeReads r.vd ps).recordBad c.w c.g (s.badLines r.past false ps)) more 0 false
  else c.guard (s.walkTrace r.at' r.vd e.1 e.2) poison (more ||| e.1) e.2 true s

/-- The register tag of a load: the smallest page grade that its lanes read, EG for a lane that OOBZ zeroes (R264). -/
def loadTag (eg : Grade) (as : List LaneAcc) : Grade :=
  (as.foldl (fun t a =>
    if a.drop then some ((t.map (Grade.min eg)).getD eg)
    else (a.parts ++ a.scales).foldl (fun t p => some ((t.map (Grade.min p.leaf.grade)).getD p.leaf.grade)) t)
    none).getD eg

/-- The lines that EARM makes uncorrectable for this load: those of lane ELANE, if it is active and reads one
(R274, R280). -/
def Wave.earmLines (w : Wave) (as : List LaneAcc) : List (Nat × Leaf) :=
  if bit w.ginj 40 then
    match as.find? (fun a => a.lane == bits w.ginj 39 33) with
    | some a => (a.parts.flatMap (fun p => p.lines.map (fun l => (l, p.leaf))))
    | none => []
  else []

/-- EARM cleared, once it has fired. -/
def Wave.earmFired (w : Wave) (ls : List (Nat × Leaf)) : Wave :=
  if ls.isEmpty then w else { w with ginj := setBits w.ginj 40 40 0 }

/-- The lanes that a set of bad lines poisons, through a load's data or a scale (R216, R266). -/
def poisonedBy (s : State) (r : Route) (wide : Bool) (bad badAux : Bad) (earm : List (Nat × Leaf))
    (as : List LaneAcc) : LaneMask :=
  as.foldl (fun m a =>
    if a.parts.any (fun p => s.partBad r wide bad p || p.lines.any (fun l => earm.any (fun e => e.1 == l)))
        || a.scales.any (s.partBad r false badAux) then m ||| ones a.lane 1 else m) 0

/-- The bytes that a lane's load receives. -/
def laneBytes (s : State) (r : Route) (wide : Bool) (bad : Bad) (a : LaneAcc) : List Byte :=
  a.parts.flatMap (s.partBytes r wide bad)

/-- The path of a vector memory instruction with its order: what it acquires and releases at its scope (R80, R212). -/
def Ctx.ordRoute (c : Ctx) (s : State) (m : MemWord) (rmw : Bool) : Route :=
  { c.route s with
    acq := if m.ord == 1 || m.ord == 3 then some m.scope.toNat else none
    rel := if m.ord == 2 || m.ord == 3 then some m.scope.toNat else none
    rmw := rmw }

/-- What the lanes of a load with `.acq` read of good lines (R235). -/
def readCells (s : State) (r : Route) (wide : Bool) (bad : Bad) (as : List LaneAcc) : List (Nat × List Byte) :=
  ((partsOf as).filter (fun p => !s.partBad r wide bad p)).map (fun p => (p.pa, s.viewBytes r p.pa wide p.n))

/-- What a load leaves beside its registers: fills, translations kept, error records, the origin latch, a fired
EARM with its own DETECT record, and the acquire of `.acq` (R191, R197, R205, R212, R268, R269, R280). -/
def Ctx.loaded (c : Ctx) (s : State) (m : MemWord) (as : List LaneAcc) (bad badAux : Bad)
    (earm : List (Nat × Leaf)) : State :=
  let r := c.ordRoute s m false
  let got := readCells s r (decide (r.share < m.scope.toNat)) bad as
  let s' := ((s.keepParts r (allParts as)).loadParts r 0 0 (auxOf as)).loadParts r m.scope.toNat m.hint.toNat (partsOf as)
  let fired : Bad := (earm.filter (fun e => !bad.any (fun b => b.1 == e.1 && b.2.1 == .detect))).map (fun e => (e.1, .detect, e.2))
  let s' := s'.noteBad c.wid c.g (badAux.filter (fun b => !bad.any (fun x => x.1 == b.1)) ++ bad ++ fired.eraseDups)
  if m.ord == 1 then (s'.noteRead r got).acquire r m.scope.toNat [] else s'

/-- Lanes of a register from a function of the lane's access; an inactive lane's value is never used. -/
def lanesFrom (w : Nat) (as : List LaneAcc) (g : LaneAcc → Lane) : List Lane :=
  (List.range w).map (fun l => match as.find? (fun a => a.lane == l) with
    | some a => g a
    | none => 0)

/-- A load's result written: one register, or the pair of a 64-bit type (R39, R142). -/
def Wave.writeLoad (w : Wave) (mask : LaneMask) (d : VReg) (wide : Bool) (lo hi : List Lane) (tag : Grade)
    (poison : LaneMask) : Wave :=
  if wide then w.setPair mask d.toNat lo hi tag poison else w.setV mask d.toNat ⟨lo, tag, poison⟩

/-- The data registers of a type. -/
def dataRegs (d : VReg) (wide : Bool) : List Nat := if wide then [d.toNat, d.toNat + 1] else [d.toNat]

/-- The tag of the data of a store: the smaller of the two registers' of a pair. -/
def Wave.dataTag (w : Wave) (rs : List Nat) : Grade := rs.foldl (fun t r => Grade.min t (w.v r).tag) 3

/-- The poison of the data of a store. -/
def Wave.dataPoison (w : Wave) (rs : List Nat) : LaneMask := rs.foldl (fun p r => p ||| (w.v r).poison) 0

/-- The low n bytes of a lane of the data registers. -/
def Wave.dataBytes (w : Wave) (d : VReg) (l n : Nat) : List Byte :=
  leBytes (lane64 (w.v d.toNat, w.v (d.toNat + 1)) l).toNat n

/-- A load through pages: holds for the CXL tier, then the values that `value` gives, with flags. Of a line that EARM strikes
the lanes receive the bytes stored there (R280). -/
def Ctx.load (c : Ctx) (s : State) (m : MemWord) (d : VReg) (wide : Bool) (as : List LaneAcc) (earms : Bool)
    (value : (LaneAcc → List Byte) → (Part → List Byte) → LaneAcc → (Lane × Lane) × BitVec 6) : State :=
  let r := c.route s
  let far := decide (r.share < m.scope.toNat)
  match c.holdLanes s far true as with
  | some p => c.hold s p
  | none =>
    let bad := s.badLines r far (partsOf as)
    let badAux := s.badLines r false (auxOf as)
    let earm := if earms then c.w.earmLines as else []
    let unread := bad.filter (fun b => !earm.any (fun e => e.1 == b.1))
    let val := value (laneBytes s r far unread) (s.partBytes r false badAux)
    let s' := c.loaded s m as bad badAux earm
    let w := ((s'.waveNow c).earmFired earm).raiseFlags (as.foldl (fun f a => f ||| (val a).2) 0)
    c.next s' (w.writeLoad c.f.mask d wide (lanesFrom w.width as (fun a => (val a).1.1))
      (lanesFrom w.width as (fun a => (val a).1.2)) (loadTag w.eg as) (poisonedBy s r far bad badAux earm as))

/-- The causes of a store or an atomic: those of its lanes, those found before, and GRADE where data offend a page; `known`
says that their registers are allocated (R48, R265). -/
def storeCauses (more : Word) (as : List LaneAcc) (known : Bool) (check : GradeCheck) : Word :=
  more ||| causesOf as ||| (if known ∧ check = .strict then Cause.grade else 0)

/-- A store of registers rs through pages: the grade check (R265), the release of `.rel`, the bytes in lane order (R143).
`more` are the causes found before, `flags` those of the conversion. -/
def Ctx.store (c : Ctx) (s : State) (more : Word) (m : MemWord) (rs : List Nat) (as : List LaneAcc) (poison : LaneMask)
    (flags : BitVec 6) (bytes : LaneAcc → List Byte) : State :=
  let check := gradeCheck (c.w.dataTag rs) (partsOf as)
  let causes := storeCauses more as (c.w.budget [] rs) check
  c.guard (s.walkTraces (c.route s) as) poison causes (infoOf as) (walkedOf as) <|
    match c.holdLanes s false false as with
    | some p => c.hold s p
    | none =>
    let r := c.ordRoute s m false
    let s := s.keepParts r (allParts as)
    let s := s.loadParts r 0 0 (auxOf as)
    let s := if m.ord == 2 then s.release r m.scope.toNat .none else s
    let s := s.storeAll r m.scope.toNat m.hint.toNat (as.flatMap (fun a => spreadBytes a.parts (bytes a)))
    let w := (s.waveNow c).raiseFlags flags
    c.next s (if check = .dilute then w.dilute else w)

/-! ### Flat (R141 to R144) -/

/-- The accesses of the lanes of VLDF and VSTF whose base is not poisoned. -/
def Ctx.flatAccs (c : Ctx) (s : State) (acc : Access) (m : MemWord) (a : Src) : List LaneAcc :=
  let r := c.route s
  (c.lanesBut (c.w.basePoison a true)).map (fun l =>
    s.locate r.at' r.vd acc l (c.w.flatAddr a m (typeSize m.ty) l) (typeSize m.ty))

/-- VLDF (R141, R142). -/
def execVldf (mw : Option MemWord) (d : VReg) (a : Src) (s : State) : Out State :=
  withEnd s fun c =>
    let m := MemWord.get mw
    let wide := memWide m.ty
    c.vmem s a true (dataRegs d wide) (c.w.basePoison a true) fun c more s =>
      let as := c.flatAccs s .load m a
      c.guard (s.walkTraces (c.route s) as) (c.w.basePoison a true) (more ||| causesOf as) (infoOf as) (walkedOf as) <|
        c.load s m d wide as true (fun bytes _ x => (extend m.ty (leValue (bytes x)), 0))

/-- VSTF (R141, R143). -/
def execVstf (mw : Option MemWord) (d : VReg) (a : Src) (s : State) : Out State :=
  withEnd s fun c =>
    let m := MemWord.get mw
    let rs := dataRegs d (memWide m.ty)
    c.vmem s a true rs (c.w.basePoison a true ||| c.w.dataPoison rs) fun c more s =>
      c.store s more m rs (c.flatAccs s .store m a) (c.w.basePoison a true ||| c.w.dataPoison rs) 0
        (fun x => c.w.dataBytes d x.lane (typeSize m.ty))

/-! ### Records (R215 to R217) -/

namespace BufRec

/-- The register elements in a lane (R50, R216). -/
def elems (r : Words) : Nat := (Num.of (BitVec.ofNat 4 (efmt r))).perLane

/-- The bits that a lane moves in memory. -/
def laneBits (r : Words) : Nat := elems r * (Num.of (BitVec.ofNat 4 (mfmt r))).width

/-- A lane of this format is a register pair. -/
def wide (r : Words) : Bool := cvtWide (BitVec.ofNat 4 (efmt r))

/-- The elements of these formats fill whole bytes, so that the lanes' accesses are known (R207, R216). -/
def sized (r : Words) : Bool := decide (efmt r ≤ 13) && decide (mfmt r ≤ 13) && laneBits r % 8 == 0

/-- The conversion stage may run (R207, R216). VCVT has no pair of equal formats: with CONV 1 to 3 the model converts such
a pair as any other (log 78). -/
def convOk (r : Words) (store : Bool) (d : VReg) : Bool :=
  sized r && !(wide r && d.toNat % 2 == 1)
    && (match conv r with
        | 0 => efmt r == mfmt r
        | 1 | 2 => true
        | 3 => !store && (skind r == 1 || (skind r == 2 && (mfmt r == 4 || mfmt r == 5)))
        | _ => false)

/-- The bytes that a lane moves: TYPE's, or the conversion stage's (R216). -/
def laneSize (r : Words) (t : BitVec 4) : Nat := if t = 0 then laneBits r / 8 else typeSize t

/-- Whether the data are a register pair. -/
def pairData (r : Words) (t : BitVec 4) : Bool := if t = 0 then wide r else memWide t

/-- The logical offset of memory element j of a lane, at a byte. -/
def elemOff (r : Words) (eo : Word) (j : Nat) : Word :=
  eo + BitVec.ofNat 64 (j * (Num.of (BitVec.ofNat 4 (mfmt r))).width / 8)

/-- Where the scale of an element stands: byte address, bytes, and the nibble of a quad scale (R64). -/
def scalePlace (r : Words) (eo : Word) : Word × Nat × Nat :=
  let n := (eo >>> s1 r) <<< s2 r
  if skind r = 1 then (sbase r + n, 4, 0) else (sbase r + (n >>> 1), 1, n.toNat % 2)

/-- The scale that its bytes denote (R62, R63). -/
def scaleValue (r : Words) (eo : Word) (bs : List Byte) : Fp :=
  if skind r = 1 then Fp.decode .f32 (leValue bs)
  else
    let q := signedOf 4 (leValue bs / 16 ^ (scalePlace r eo).2.2)
    .fin false 1 q

end BufRec

/-- Element j of n bits of a value. -/
def elemOf (v n j : Nat) : Nat := v / 2 ^ (n * j) % 2 ^ n

/-- Elements of n bits packed from the low end (R50). -/
def packElems (n : Nat) : List Nat → Nat
  | [] => 0
  | e :: es => e % 2 ^ n + 2 ^ n * packElems n es

/-- A value as the low and high words of a lane. -/
def splitLane (v : Nat) : Lane × Lane := (BitVec.ofNat 32 v, BitVec.ofNat 32 (v / 2 ^ 32))

/-- One memory element into a register element under CONV (R216); `scale` is used by CONV 3 alone. A product that is no
finite number, as of an integer and an infinite coarse scale, is converted as one of f32 (log 78). -/
def convLoad (r : BufRec.Words) (scale : Fp) (x : Nat) : Nat × BitVec 6 :=
  let dst := Num.of (BitVec.ofNat 4 (BufRec.efmt r))
  let src := Num.of (BitVec.ofNat 4 (BufRec.mfmt r))
  match BufRec.conv r with
  | 0 => (x, 0)
  | 1 => convert dst src .rne 0 0 x
  | 2 => convert dst src .rne 0 1 x
  | _ =>
    let p := mulFp (src.value x) scale
    let from' := match p.1 with
      | .fin _ _ _ => src
      | _ => .flt .f32
    let q := convertValue dst from' .rne 0 0 p.1
    (q.1, q.2 ||| p.2)

/-- One register element into a memory element under CONV (R216). -/
def convStore (r : BufRec.Words) (y : Nat) : Nat × BitVec 6 :=
  let dst := Num.of (BitVec.ofNat 4 (BufRec.mfmt r))
  let src := Num.of (BitVec.ofNat 4 (BufRec.efmt r))
  match BufRec.conv r with
  | 0 => (y, 0)
  | 1 => convert dst src .rne 0 0 y
  | _ => convert dst src .rne 0 1 y

/-- The scales of a lane, added to its access, where the record has scales (R216). -/
def State.addScales (s : State) (r : Route) (w : BufRec.Words) (eo : Word) (a : LaneAcc) : LaneAcc :=
  if BufRec.conv w ≠ 3 ∨ BufRec.skind w = 0 ∨ a.drop then a
  else (List.range (BufRec.elems w)).foldl (fun a j =>
    let pl := BufRec.scalePlace w (BufRec.elemOff w eo j)
    let e := s.locate r.at' r.vd .load a.lane pl.1 pl.2.1
    { a with scales := a.scales ++ e.parts, causes := a.causes ||| e.causes,
             info := if a.info.isSome then a.info else e.info, walked := a.walked || e.walked }) a

/-- The parts of one element's scale. -/
def scaleParts (s : State) (r : Route) (w : BufRec.Words) (eo : Word) (lane : Nat) (j : Nat) : List Part :=
  let pl := BufRec.scalePlace w (BufRec.elemOff w eo j)
  (s.locate r.at' r.vd .load lane pl.1 pl.2.1).parts

/-- The accesses of the lanes of VLD and VST whose offset is not poisoned; of a load through the conversion stage the scales
with them, whose causes join those of formats that do not serve (R48, R216). -/
def Ctx.recAccs (c : Ctx) (s : State) (w : BufRec.Words) (acc : Access) (m : MemWord) (a : Src) : List LaneAcc :=
  let r := c.route s
  let n := BufRec.laneSize w m.ty
  (c.lanesBut (c.w.basePoison a false)).map (fun l =>
    let eo := c.w.offset a m n l
    let x := s.recAccess r w acc l eo n
    if m.ty = 0 ∧ acc = .load then s.addScales r w eo x else x)

/-- The value of a lane of VLD (R216). -/
def Ctx.recValue (c : Ctx) (s : State) (w : BufRec.Words) (m : MemWord) (a : Src)
    (bytes : LaneAcc → List Byte) (aux : Part → List Byte) (x : LaneAcc) : (Lane × Lane) × BitVec 6 :=
  if x.drop then ((0, 0), 0)
  else if m.ty ≠ 0 then (extend m.ty (leValue (bytes x)), 0)
  else
    let eo := c.w.offset a m (BufRec.laneSize w m.ty) x.lane
    let v := leValue (bytes x)
    let es := (List.range (BufRec.elems w)).map (fun j =>
      let scale := if BufRec.conv w = 3 then
          BufRec.scaleValue w (BufRec.elemOff w eo j) ((scaleParts s (c.route s) w eo x.lane j).flatMap aux)
        else .nan
      convLoad w scale (elemOf v (Num.of (BitVec.ofNat 4 (BufRec.mfmt w))).width j))
    (splitLane (packElems (Num.of (BitVec.ofNat 4 (BufRec.efmt w))).width (es.map Prod.fst)),
      es.foldl (fun f e => f ||| e.2) 0)

/-- The bytes of a lane of VST with the flags of their conversion (R216). -/
def Ctx.recData (c : Ctx) (w : BufRec.Words) (m : MemWord) (d : VReg) (l : Nat) : List Byte × BitVec 6 :=
  let n := BufRec.laneSize w m.ty
  if m.ty ≠ 0 then (c.w.dataBytes d l n, 0)
  else
    let v := (lane64 (c.w.v d.toNat, c.w.v (d.toNat + 1)) l).toNat
    let es := (List.range (BufRec.elems w)).map (fun j =>
      convStore w (elemOf v (Num.of (BitVec.ofNat 4 (BufRec.efmt w))).width j))
    (leBytes (packElems (Num.of (BitVec.ofNat 4 (BufRec.mfmt w))).width (es.map Prod.fst)) n,
      es.foldl (fun f e => f ||| e.2) 0)

/-- What an instruction asks of its record: the poison of what it consumes, whether it stores, the address of its lowest
active lane's access, whether the formats serve, whether the lanes' sizes are known, and the registers that the formats
name. -/
structure RecAsk where
  poison  : LaneMask
  store   : Bool
  first   : Word
  formats : Bool
  sized   : Bool
  regs    : List Nat
  deriving DecidableEq, Repr

/-- The start of an instruction through record n: the record, and what it alone decides (R207, R216). A pair that the
record's format needs is named by the instruction (R95). What arises here joins `more`, and `k` raises it with the causes
of the lanes (R48); where the lanes' sizes are not known it comes alone, with PERM where the instruction may not store
through the record (R215), whose address is that of the lowest active lane's access. RECBAD of formats that do not serve is
raised also where OOBZ drops every active lane, since the record alone decides it (R216, R217; log 78). -/
def Ctx.withRecord (c : Ctx) (s : State) (n : Nat) (more : Word) (poison : LaneMask) (ask : BufRec.Words → RecAsk)
    (k : BufRec.Words → Word → State → State) : State :=
  let r := c.route s
  match c.holdRecord s n, s.record r c.g n with
  | some p, _ => c.hold s p
  | none, .error e => c.recFail s n more poison e
  | none, .ok w =>
    let q := ask w
    let perm := BufRec.ro w && q.store
    let bad := more ||| (if q.formats then 0 else Cause.recbad) ||| (if c.w.budget [] q.regs then 0 else Cause.budget)
    if !q.sized then
      c.guard s q.poison (bad ||| (if perm then Cause.perm else 0)) (if perm then q.first else 0) false s
    else k w bad (if bad = 0 then s.recKeep r c.g n w else s)

/-- The logical address of the lowest active lane of an access through a record, for elements of n bytes. -/
def Ctx.recFirst (c : Ctx) (a : Src) (m : MemWord) (n : Nat) (w : BufRec.Words) : Word :=
  BufRec.base w + c.w.offset a m n ((laneList c.w.width c.f.mask).headD 0)

/-- VLD (R215 to R217). -/
def execVld (mw : Option MemWord) (d : VReg) (a : Src) (n : BitVec 8) (s : State) : Out State :=
  withEnd s fun c =>
    let m := MemWord.get mw
    c.vmem s a false (dataRegs d (memWide m.ty)) (c.w.basePoison a false) fun c more s =>
      c.withRecord s n.toNat more (c.w.basePoison a false)
        (fun w => { poison := c.w.basePoison a false, store := false, first := 0,
                    formats := m.ty != 0 || BufRec.convOk w false d, sized := m.ty != 0 || BufRec.sized w,
                    regs := dataRegs d (BufRec.pairData w m.ty) }) fun w more s =>
          let as := c.recAccs s w .load m a
          c.guard (s.walkTraces (c.route s) as) (c.w.basePoison a false) (more ||| causesOf as) (infoOf as) (walkedOf as) <|
            c.load s m d (BufRec.pairData w m.ty) as true (c.recValue s w m a)

/-- VST (R215 to R217). A poisoned data lane that OOBZ drops raises INTEG all the same (log 35). -/
def execVst (mw : Option MemWord) (d : VReg) (a : Src) (n : BitVec 8) (s : State) : Out State :=
  withEnd s fun c =>
    let m := MemWord.get mw
    let named := c.w.basePoison a false ||| c.w.dataPoison (dataRegs d (memWide m.ty))
    c.vmem s a false (dataRegs d (memWide m.ty)) named fun c more s =>
      c.withRecord s n.toNat more named
        (fun w => { poison := c.w.basePoison a false ||| c.w.dataPoison (dataRegs d (BufRec.pairData w m.ty)), store := true,
                    first := c.recFirst a m (BufRec.laneSize w m.ty) w,
                    formats := m.ty != 0 || BufRec.convOk w true d, sized := m.ty != 0 || BufRec.sized w,
                    regs := dataRegs d (BufRec.pairData w m.ty) }) fun w more s =>
          let rs := dataRegs d (BufRec.pairData w m.ty)
          let as := c.recAccs s w .store m a
          let stored := as.filter (fun x => !x.drop)
          c.store s more m rs as (c.w.basePoison a false ||| c.w.dataPoison rs)
            (stored.foldl (fun f x => f ||| (c.recData w m d x.lane).2) 0) (fun x => (c.recData w m d x.lane).1)

/-! ### Scratchpads (R218) -/

/-- The places of the lanes of VLDS and VSTS whose base is not poisoned. -/
def Ctx.spAccs (c : Ctx) (s : State) (m : MemWord) (a : Src) (window : Bool) :
    List (Nat × Except Word (List (Nat × Nat))) :=
  (c.lanesBut (c.w.basePoison a false)).map (fun l =>
    (l, s.spBytes c.w.team c.t c.g window (c.w.offset a m (typeSize m.ty) l) (typeSize m.ty)))

/-- The first offset out of range of the lowest lane. -/
def spFault (as : List (Nat × Except Word (List (Nat × Nat)))) : Option Word :=
  as.findSome? (fun x => match x.2 with
    | .error e => some e
    | .ok _ => none)

/-- The places of a lane. -/
def spOf (as : List (Nat × Except Word (List (Nat × Nat)))) (l : Nat) : List (Nat × Nat) :=
  match as.find? (fun x => x.1 == l) with
  | some (_, .ok ps) => ps
  | _ => []

/-- Where a scratchpad byte of a team stands among the bytes that releases and acquires pair by: above every physical address
(R193, R235). -/
def scratchAt (p : Nat × Nat) : Nat := (p.1 + 1) * 2 ^ 52 + p.2

/-- The cause of a scratchpad access. -/
def spCause (as : List (Nat × Except Word (List (Nat × Nat)))) : Word × Word :=
  match spFault as with
  | some x => (Cause.sprange, x)
  | none => (0, 0)

/-- VLDS (R218). -/
def execVlds (mw : Option MemWord) (d : VReg) (a : Src) (win : BitVec 1) (s : State) : Out State :=
  withEnd s fun c =>
    let m := MemWord.get mw
    let wide := memWide m.ty
    c.vmem s a false (dataRegs d wide) (c.w.basePoison a false) fun c more s =>
      let as := c.spAccs s m a (win == 1)
      let cause := spCause as
      c.guard s (c.w.basePoison a false) (more ||| cause.1) cause.2 false <|
        let val := fun l => extend m.ty (leValue ((spOf as l).map s.spRead))
        let places := as.flatMap (fun x => spOf as x.1)
        let tag := places.foldl (fun t p => Grade.min t (s.spTag p)) 3
        let poison := as.foldl (fun p x => if (spOf as x.1).any s.spPoison then p ||| ones x.1 1 else p) (0 : LaneMask)
        let r := c.ordRoute s m false
        let got := as.map (fun x => (scratchAt ((spOf as x.1).headD (0, 0)), (spOf as x.1).map s.spRead))
        let s' := if m.ord == 1 then (s.noteRead r got).acquire r m.scope.toNat [] else s
        let w := if poison ≠ 0 then c.w.fillOrigin (originWord c.g.owner.toNat 1 c.w.eg.toNat 0) else c.w
        c.next s' (w.writeLoad c.f.mask d wide ((List.range w.width).map (fun l => (val l).1))
          ((List.range w.width).map (fun l => (val l).2)) tag poison)

/-- VSTS (R218). -/
def execVsts (mw : Option MemWord) (d : VReg) (a : Src) (win : BitVec 1) (s : State) : Out State :=
  withEnd s fun c =>
    let m := MemWord.get mw
    let rs := dataRegs d (memWide m.ty)
    c.vmem s a false rs (c.w.basePoison a false ||| c.w.dataPoison rs) fun c more s =>
      let as := c.spAccs s m a (win == 1)
      let cause := spCause as
      c.guard s (c.w.basePoison a false ||| c.w.dataPoison rs) (more ||| cause.1) cause.2 false <|
        let r := c.ordRoute s m false
        let s := if m.ord == 2 then s.release r m.scope.toNat .none else s
        let s := as.foldl (fun s x =>
          let bs := c.w.dataBytes d x.1 (typeSize m.ty)
          (s.noteStore r (((spOf as x.1).map scratchAt).zip bs)).spStore (spOf as x.1) bs (c.w.dataTag rs)) s
        c.next s (s.waveNow c)

/-! ### VATOM (R219, R220) -/

/-- The operations of R219 and R221 on n bits; `b` is the operand and `cmp` the comparand of cas. -/
inductive AtomOp where
  | add | minS | minZ | maxS | maxZ | and | or | xor | xchg | cas
  deriving DecidableEq, Repr

/-- The new value of an element of n bits. -/
def AtomOp.apply (o : AtomOp) (n old b cmp : Nat) : Nat :=
  match o with
  | .add => (old + b) % 2 ^ n
  | .minS => if signedOf n b < signedOf n old then b else old
  | .minZ => if b < old then b else old
  | .maxS => if signedOf n old < signedOf n b then b else old
  | .maxZ => if old < b then b else old
  | .and => old &&& b
  | .or => old ||| b
  | .xor => old ^^^ b
  | .xchg => b
  | .cas => if old = cmp then b else old

/-- The operation that ATOP and TYPE select (R80). -/
def atopOf (m : MemWord) : AtomOp :=
  let signed := m.ty == 0 || m.ty == 5 || m.ty == 7
  match m.atop.toNat with
  | 0 => .add
  | 1 => if signed then .minS else .minZ
  | 2 => if signed then .maxS else .maxZ
  | 3 => .and
  | 4 => .or
  | 5 => .xor
  | 6 => .xchg
  | _ => .cas

/-- The data registers of a VATOM, the comparand's last (R219). -/
def atomRegs (d : VReg) (wide cas : Bool) : List Nat :=
  (List.range ((if wide then 2 else 1) * (if cas then 2 else 1))).map (· + d.toNat)

/-- The accesses of a VATOM: a misaligned lane whose address is known raises ALIGN (R220). -/
def Ctx.atomAccs (c : Ctx) (s : State) (w : BufRec.Words) (m : MemWord) (a : Src) (n : Nat) : List LaneAcc :=
  let r := c.route s
  (c.lanesBut (c.w.basePoison a false)).map (fun l =>
    let x := s.recAccess r w .atomic l (c.w.offset a m n l) n
    if !x.drop && x.known && x.va.toNat % n != 0 then
      { x with causes := x.causes ||| Cause.align, info := some x.va }
    else x)

/-- The lanes of a VATOM performed in rising order: the state and the old value of each (R220). A lane whose
element is uncorrectable, as `found` tells, is not performed, and its value is free. -/
def Ctx.atomLanes (c : Ctx) (m : MemWord) (d : VReg) (n : Nat) (found : Part → Option LineCheck) :
    List LaneAcc → State → State × List (Nat × Nat) × LaneMask × Bad
  | [], s => (s, [], 0, [])
  | x :: xs, s =>
    let r := c.ordRoute s m true
    match x.drop, x.parts with
    | false, p :: _ =>
      match found p with
      | some f =>
        let free := (Config.freeWord (Nat.pair s.free p.pa)).toNat % 2 ^ (8 * n)
        let y := c.atomLanes m d n found xs s
        (y.1, (x.lane, free) :: y.2.1, y.2.2.1 ||| ones x.lane 1, (p.pa / 128, f, p.leaf) :: y.2.2.2)
      | none =>
        let wide := decide (n = 8)
        let v := if wide then (lane64 (c.w.v d.toNat, c.w.v (d.toNat + 1)) x.lane).toNat
          else ((c.w.v d.toNat).lane x.lane).toNat
        let cmp := if wide then (lane64 (c.w.v (d.toNat + 2), c.w.v (d.toNat + 3)) x.lane).toNat
          else ((c.w.v (d.toNat + 1)).lane x.lane).toNat
        let q := s.atomicAt r m.scope.toNat p.pa n p.leaf (fun old => (atopOf m).apply (8 * n) old v cmp)
        let y := c.atomLanes m d n found xs q.1
        (y.1, (x.lane, q.2) :: y.2.1, y.2.2)
    | _, _ =>
      let y := c.atomLanes m d n found xs s
      (y.1, (x.lane, 0) :: y.2.1, y.2.2)

/-- VATOM (R219, R220, R265). -/
def execVatom (mw : Option MemWord) (d : VReg) (a : Src) (rn : BitVec 8) (s : State) : Out State :=
  withEnd s fun c =>
    let m := MemWord.get mw
    let wide := memWide m.ty
    let n := if wide then 8 else 4
    let rs := atomRegs d wide (m.atop == 7)
    let poison := c.w.basePoison a false ||| c.w.dataPoison rs
    c.vmem s a false rs poison fun c more s =>
      c.withRecord s rn.toNat more poison
        (fun w => { poison := poison, store := true, first := c.recFirst a m n w, formats := true, sized := true,
                    regs := [] }) fun w more s =>
        let as := c.atomAccs s w m a n
        let check := gradeCheck (c.w.dataTag rs) (partsOf as)
        let causes := storeCauses more as (c.w.budget [] rs) check
        c.guard (s.walkTraces (c.route s) as) poison causes (infoOf as) (walkedOf as) <|
          match c.holdLanes s false false as with
          | some p => c.hold s p
          | none =>
          let r := c.ordRoute s m true
          let s := (s.keepParts r (allParts as)).loadParts r 0 0 (auxOf as)
          let s := if m.ord == 2 || m.ord == 3 then s.release r m.scope.toNat .none else s
          let s := s.atomicOpen r m.scope.toNat (partsOf as)
          let found := fun (p : Part) => s.atomicBad r m.scope.toNat p.pa n p.leaf
          let y := c.atomLanes m d n found as (s.atomicReads r m.scope.toNat (partsOf as))
          let s := y.1.noteBad c.wid c.g y.2.2.2.eraseDups
          let s : State := { s with free := s.free + 1 }
          let s := if m.ord == 1 || m.ord == 3 then s.acquire r m.scope.toNat [] else s
          let w := s.waveNow c
          let w := if check = .dilute then w.dilute else w
          let val := fun l => splitLane (((y.2.1.find? (fun v => v.1 == l)).map Prod.snd).getD 0)
          let tag := loadTag w.eg as
          c.next s (w.writeLoad c.f.mask d wide ((List.range w.width).map (fun l => (val l).1))
            ((List.range w.width).map (fun l => (val l).2)) tag y.2.2.1)

end Sys2Proof.Machine
end

