-- ==== Sys2Proof/Machine/ScalarMem.lean ====
section
/-! DEFINITION. Scalar loads and stores (R113, R114), scalar atomics (R221), and the memory-system group: fences,
remote acquire, record fence, prefetch, cache maintenance and MSC pinning (R222 to R230). -/

namespace Sys2Proof.Machine

/-! ### SLD and SST (R113, R114) -/

/-- The memory word of a plain access at wave scope. -/
def MemWord.plain : MemWord := MemWord.get none

/-- The smallest grade of the pages of a list of parts: the tag of a scalar whose bytes lie in two pages, of which R264
speaks as of one (log 76). -/
def pageGrade (ps : List Part) : Grade := ps.foldl (fun t p => Grade.min t p.leaf.grade) 3

/-- A load met uncorrectable data that no register can hold: the records, and INTEG at the instruction (R114, R221,
R267). -/
def Ctx.badScalar (c : Ctx) (s : State) (bad : Bad) (ps : List Part) : State :=
  c.consume ((s.loadParts (c.route s) 0 0 ps).recordBad c.w c.g bad) 0 0 false

/-- The start of an access at an address in register a, which names besides the registers ws that it writes and rs that it
reads: BUDGET alone where a is not allocated, else with the causes of the access, which `k` raises (R48, R95). -/
def scalarAccess (s : State) (a : SReg) (ws rs : List Nat) (k : Ctx → Word → State → State) : Out State :=
  withEnd s fun c =>
    let more : Word := if c.w.budget (ws ++ rs) [] then 0 else Cause.budget
    if !c.w.hasS a.toNat then c.raise s Cause.budget 0
    else if c.w.pendingAny (ws ++ rs ++ [a.toNat]) then c.stall s (.score (ws ++ rs ++ [a.toNat]))
    else k (c.observe s ws (rs ++ [a.toNat])).1 more (c.observe s ws (rs ++ [a.toNat])).2

/-- SLD of n bytes: zero-extended, tagged with the page's grade (R113, R264). An unaligned access too is made in one step: no
other agent sees a part of it (log 34). -/
def scalarLoad (s : State) (d a : SReg) (i : BitVec 13) (n : Nat) : Out State :=
  scalarAccess s a [d.toNat] [] fun c more s =>
    let r := c.route s
    let x := s.locate r.at' r.vd .load 0 (c.w.s a + imm i) n
    if more ||| x.causes ≠ 0 then c.raiseMem s (more ||| x.causes) (x.info.getD 0)
    else match c.holdPort s false x.parts with
      | some p => c.hold s p
      | none =>
        let bad := s.badLines r false x.parts
        if !bad.isEmpty then c.badScalar s bad x.parts
        else
          let v := leValue (laneBytes s r false bad x)
          let s := (s.keepParts r x.parts).loadParts r 0 0 x.parts
          c.next s (c.w.setS d (BitVec.ofNat 64 v) (pageGrade x.parts))

/-- SST of the low n bytes (R113), with the grade check of R265; unaligned, it too is made in one step (log 34). -/
def scalarStore (s : State) (d a : SReg) (i : BitVec 13) (n : Nat) : Out State :=
  scalarAccess s a [] [d.toNat] fun c more s =>
    let r := c.route s
    let x := s.locate r.at' r.vd .store 0 (c.w.s a + imm i) n
    let check := gradeCheck (c.w.stag d) x.parts
    let causes := more ||| x.causes ||| (if more = 0 ∧ check = .strict then Cause.grade else 0)
    if causes ≠ 0 then c.raiseMem s causes (x.info.getD 0)
    else
      let s := (s.keepParts r x.parts).storeAll r 0 0 (spreadBytes x.parts (leBytes (c.w.s d).toNat n))
      c.next s (if check = .dilute then c.w.dilute else c.w)

/-- SLD.b (R113). -/
def execSldB (d a : SReg) (i : BitVec 13) (s : State) : Out State := scalarLoad s d a i 1
/-- SLD.h (R113). -/
def execSldH (d a : SReg) (i : BitVec 13) (s : State) : Out State := scalarLoad s d a i 2
/-- SLD.w (R113). -/
def execSldW (d a : SReg) (i : BitVec 13) (s : State) : Out State := scalarLoad s d a i 4
/-- SLD.d (R113). -/
def execSldD (d a : SReg) (i : BitVec 13) (s : State) : Out State := scalarLoad s d a i 8
/-- SST.b (R113). -/
def execSstB (d a : SReg) (i : BitVec 13) (s : State) : Out State := scalarStore s d a i 1
/-- SST.h (R113). -/
def execSstH (d a : SReg) (i : BitVec 13) (s : State) : Out State := scalarStore s d a i 2
/-- SST.w (R113). -/
def execSstW (d a : SReg) (i : BitVec 13) (s : State) : Out State := scalarStore s d a i 4
/-- SST.d (R113). -/
def execSstD (d a : SReg) (i : BitVec 13) (s : State) : Out State := scalarStore s d a i 8

/-! ### SATOM (R221) -/

/-- The operation of a SATOM's minor; others are refused at decode (R90). -/
def satomOp (o : BitVec 4) : AtomOp :=
  match o.toNat with
  | 0 => .add
  | 1 => .minS
  | 2 => .maxS
  | 3 => .minZ
  | 4 => .maxZ
  | 5 => .and
  | 6 => .or
  | 7 => .xor
  | 8 => .xchg
  | _ => .cas

/-- The tag of the operand that a SATOM stores: of a cas the smaller of the new value's and the comparand's (R264). -/
def Wave.satomTag (w : Wave) (o : AtomOp) (d b : SReg) : Grade :=
  if o = .cas then Grade.min (w.stag b) (w.stag d) else w.stag b

/-- SATOM (R221): ALIGN first, then the page, then the data, all with BUDGET of a register beside the address (R48); `rel`
and `acq` order it (R212). -/
def satom (s : State) (d a b : SReg) (o : BitVec 4) (x : BitVec 3) (acq rel : Bool) : Out State :=
  scalarAccess s a [] [d.toNat, b.toNat] fun c more s =>
    let va := c.w.s a
    if va.extractLsb' 0 3 ≠ 0 then c.raise s (more ||| Cause.align) va
    else
      let r := { c.route s with
        acq := if acq then some x.toNat else none
        rel := if rel then some x.toNat else none
        rmw := true }
      let y := s.locate r.at' r.vd .atomic 0 va 8
      let op := satomOp o
      let check := gradeCheck (c.w.satomTag op d b) y.parts
      match y.parts with
      | [] => c.raiseMem s (more ||| y.causes) (y.info.getD 0)
      | p :: _ =>
        let known := c.w.hasS b.toNat && (op != .cas || c.w.hasS d.toNat)
        if more ≠ 0 then c.raise s (more ||| (if known ∧ check = .strict then Cause.grade else 0)) 0
        else
        let bad := (s.atomicPlace r x.toNat p.pa 8).atomicBad r x.toNat p.pa 8 p.leaf
        if check = .strict then
          (match bad with
           | some f => c.consume (s.recordBad c.w c.g [(p.pa / 128, f, p.leaf)]) Cause.grade 0 false
           | none => c.raise s Cause.grade 0)
        else match bad with
          | some f =>
            let s := (s.atomicPlace r x.toNat p.pa 8).afterRead (p.pa / 128) 0 128 p.leaf.grade.toNat p.leaf.owner
            c.consume (s.recordBad c.w c.g [(p.pa / 128, f, p.leaf)]) 0 0 false
          | none =>
            let s := s.keepParts r y.parts
            let s := if rel then s.release r x.toNat .none else s
            let s := (s.atomicOpen r x.toNat y.parts).atomicReads r x.toNat y.parts
            let q := s.atomicAt r x.toNat p.pa 8 p.leaf
              (fun old => op.apply 64 old (c.w.s b).toNat (c.w.s d).toNat)
            let s := if acq then q.1.acquire r x.toNat [] else q.1
            let w := if check = .dilute then c.w.dilute else c.w
            c.next s (w.setS d (BitVec.ofNat 64 q.2) (pageGrade y.parts))

/-- SATOM, plain (R221). -/
def execSatom (d a b : SReg) (o : BitVec 4) (x : BitVec 3) (s : State) : Out State := satom s d a b o x false false
/-- SATOM.acq (R221). -/
def execSatomAcq (d a b : SReg) (o : BitVec 4) (x : BitVec 3) (s : State) : Out State := satom s d a b o x true false
/-- SATOM.rel (R221). -/
def execSatomRel (d a b : SReg) (o : BitVec 4) (x : BitVec 3) (s : State) : Out State := satom s d a b o x false true
/-- SATOM.acqrel (R221). -/
def execSatomAcqrel (d a b : SReg) (o : BitVec 4) (x : BitVec 3) (s : State) : Out State := satom s d a b o x true true

/-! ### Fences (R222, R223) -/

/-- The bytes of a line that a wave has stored (R223). -/
def State.storedBy (s : State) (wave line : Nat) : BitVec 128 :=
  s.writeLog.foldl (fun m x =>
    match x with
    | .wrote x =>
      if x.by'.agent = wave then
        x.bytes.foldl (fun m b => if b.1 / 128 = line then m ||| ones (b.1 % 128) 1 else m) m
      else m
    | _ => m) 0

/-- Every dirty MSC byte that an earlier store of a wave placed written back to DRAM; the lines stay, and those bytes are
clean (R223). -/
def State.cleanMscs (s : State) (wave : Nat) : State :=
  (s.msc.map Prod.fst).foldl (fun s line => s.mscCleanPart line (s.storedBy wave line)) s

/-- A release at a scope, or at bank scope, which goes through the MSCs to the banks (R222, R223), with that by which it pairs:
a FENCE writes no value that an acquire could read, and synchronises with an RACQ alone (R235, R236). -/
def Ctx.fenceRel (c : Ctx) (s : State) (x : BitVec 3) (key : Sync) : State :=
  if x = 7 then (s.release (c.route s) 6 key).cleanMscs c.wid else s.release (c.route s) x.toNat key

/-- An acquire at a scope; at bank scope one at system scope (R222, R223). It reads no value by which it could pair (R235). -/
def Ctx.fenceAcq (c : Ctx) (s : State) (x : BitVec 3) : State :=
  s.acquire (c.route s) (if x = 7 then 6 else x.toNat) []

/-- FENCE (R222, R223): the release first. -/
def execFence (x : BitVec 3) (s : State) : Out State :=
  withEnd s fun c => c.next (c.fenceAcq (c.fenceRel s x .none) x) c.w

/-- FENCE.acq (R222, R223). -/
def execFenceAcq (x : BitVec 3) (s : State) : Out State := withEnd s fun c => c.next (c.fenceAcq s x) c.w

/-- FENCE.rel (R222, R223). -/
def execFenceRel (x : BitVec 3) (s : State) : Out State := withEnd s fun c => c.next (c.fenceRel s x .none) c.w

/-! ### RACQ and RFENCE (R224 to R226) -/

/-- The promotion of a line's owner, if it has one (R225). -/
def State.promoteLine (s : State) (line scope : Nat) : State :=
  match TabOps.find? s.owners line with
  | some q => s.promote q scope
  | none => s

/-- RACQ (R225): it pairs with what the waves of the line's owner have released (R236). -/
def execRacq (a : SReg) (x : BitVec 3) (s : State) : Out State :=
  scalarOp s [] [a.toNat] [] fun c s =>
    let r := c.route s
    match s.translate r.at' r.vd (c.w.s a) .load with
    | .error e => c.raiseMem s (Cause.ofMem e) (c.w.s a)
    | .ok (_, pa) =>
      let s := s.keep r.at' r.vd (c.w.s a)
      let keys := ((TabOps.find? s.owners (pa / 128)).map Sync.owner).toList
      c.next ((s.promoteLine (pa / 128) x.toNat).acquire r x.toNat keys) c.w

/-- PROMOTION_REQUEST: it reaches the line's owner at a scope (R225). -/
def execPromotionRequest (line : Nat) (scope : BitVec 3) (s : State) : Out State :=
  .next (s.promoteLine line scope.toNat)

/-- RFENCE: the wave's stores reach their homes and the core's record cache is emptied (R226). -/
def execRfence (s : State) : Out State :=
  withEnd s fun c =>
    let r := c.route s
    let s := r.cores.foldl (fun s key => s.writeBack key 7) s
    c.next (s.setCore r.own { s.core r.own with recCache := [] }) c.w

/-! ### Prefetch and maintenance (R227, R228) -/

/-- PREF: the line is requested as a plain load of 128 bytes would; a failed translation drops it (R227). -/
def execPref (a : SReg) (s : State) : Out State :=
  scalarOp s [] [a.toNat] [] fun c s =>
    let r := c.route s
    let va := c.w.s a
    match s.translate r.at' r.vd va .load with
    | .error e => c.next (s.walkTrace r.at' r.vd (Cause.ofMem e) va) c.w
    | .ok (leaf, pa) =>
      let p : Part := { lane := 0, va := va, pa := pa / 128 * 128, n := 128, leaf := leaf }
      let s := s.keep r.at' r.vd va
      let bad := s.badLines r false [p]
      let s := s.recordBad c.w c.g bad
      c.next (s.loadParts r 0 0 [p]) c.w

/-- One line of CFLUSH: written back from the L1 and dropped, and cleaned in its MSC (R228). -/
def State.flushLine (s : State) (r : Route) (line : Nat) : State :=
  let key := r.slice (line * 128)
  ((s.writeBackLine key line).dropL1 key line).mscClean line

/-- One line of CINV: its clean bytes are invalidated (R228). -/
def State.invLine (s : State) (r : Route) (line : Nat) : State :=
  let key := r.slice (line * 128)
  match s.l1 key line with
  | none => s
  | some l => if l.dirty = 0 then s.dropL1 key line else s.setL1 key line { l with valid := 0 }

/-- The pages of 4 KiB that a range touches, up to a number. -/
def pagesOf (a n : Nat) : Nat → List Nat
  | 0 => []
  | k + 1 => if n = 0 then [] else
      a / 4096 * 4096 :: pagesOf (a / 4096 * 4096 + 4096) (n - (4096 - a % 4096)) k

/-- The physical address of a page that translates, whatever its rights; none when it does not, or has no home. -/
def State.place (s : State) (r : Route) (va : Word) : Option Nat :=
  match s.leafOf r.at' r.vd va with
  | some l => if s.homeState (l.pa va) = .ok then some (l.pa va) else none
  | none => none

/-- The lines of a range, each page translated by itself, pages that fail skipped (R228). The range ends at the top
of the address space. -/
def State.rangeLines (s : State) (r : Route) (a n : Nat) : List Nat :=
  let n := min n (2 ^ 64 - a)
  (pagesOf a n (n / 4096 + 2)).flatMap fun page =>
    match s.place r (BitVec.ofNat 64 page) with
    | none => []
    | some pa => (List.range 32).filterMap fun i =>
        let v := page + 128 * i
        if v + 128 ≤ a ∨ a + n ≤ v then none else some (pa / 128 + i)

/-- What the translations of a range's pages leave, of those that fail too (R204, R205, R228). -/
def State.rangeKeep (s : State) (r : Route) (a n : Nat) : State :=
  let n := min n (2 ^ 64 - a)
  (pagesOf a n (n / 4096 + 2)).foldl (fun s page => s.keep r.at' r.vd (BitVec.ofNat 64 page)) s

/-- CFLUSH and CINV order as FENCE.rel at wave scope, then act on every line of the range (R228). -/
def rangeOp (s : State) (a b : SReg) (g : State → Route → Nat → State) : Out State :=
  scalarOp s [] [a.toNat, b.toNat] [] fun c s =>
    let r := c.route s
    let s' := s.release r 0 .none
    let x := (c.w.s a).toNat
    let n := (c.w.s b).toNat
    c.next ((s'.rangeLines r x n).foldl (fun s line => g s r line) (s'.rangeKeep r x n)) c.w

/-- CFLUSH (R228). -/
def execCflush (a b : SReg) (s : State) : Out State := rangeOp s a b State.flushLine

/-- CINV (R228). -/
def execCinv (a b : SReg) (s : State) : Out State := rangeOp s a b State.invLine

/-! ### Pinning (R196, R229, R230) -/

/-- Every page of a window of n pages translated as a load: its parts, and the causes of all that fail, with the address of
the first one (R48, R343). -/
def State.windowPages (s : State) (r : Route) (va : Word) (n : Nat) : LaneAcc :=
  ((List.range n).map (fun i => (va + BitVec.ofNat 64 (4096 * i), 4096))).foldl (LaneAcc.piece s r.at' r.vd .load)
    (LaneAcc.start 0 va)

/-- The pages of a window have one home, in one partition (R229). -/
def oneHome (s : State) (ps : List (Nat × Leaf)) : Bool :=
  match ps with
  | [] => false
  | (pa, _) :: _ => ps.all (fun p => s.homeDie p.1 == s.homeDie pa && decide (p.1 < hbmTop) == decide (pa < hbmTop))

/-- The MSC sets of the lines of a list of pages. -/
def setsOf (pages : List Nat) : List Nat :=
  pages.flatMap (fun p => (List.range 32).map (fun i => mscSet (p * 4096 + i * 128)))

/-- Some set of a die would hold more pinned lines, each counted once, than its near ways less 4 (R196). -/
def State.pinOverflow (s : State) (die : Nat) (pages : List Nat) : Bool :=
  let sets := setsOf (pages ++ (s.pins.filter (fun p => p.die == die)).flatMap Pin.pages).eraseDups
  (setsOf pages.eraseDups).any (fun k => decide (12 - (s.die die).far < sets.count k))

/-- The 64 KiB blocks that a device has pinned on a die. -/
def State.pinnedBlocks (s : State) (vd die : Nat) : Nat :=
  (s.pins.filter (fun p => p.vd == vd && p.die == die)).foldl (fun n p => n + p.pages.length / 16) 0

/-- A window index that a die has free. -/
def State.freePin (s : State) (die : Nat) : Option Nat :=
  (List.range 16).find? (fun i => !s.pins.any (fun p => p.die == die && p.index == i))

/-- The checks of MSCPIN after translation: the code, of several that hold the lowest (log 79), and for code 0 the die and
index (R229). -/
def State.pinCheck (s : State) (r : Route) (ps : List (Nat × Leaf)) : Nat × Nat × Nat :=
  let die := s.homeDie (((ps.head?).map Prod.fst).getD 0)
  if ps.any (fun p => !p.2.pin) || !oneHome s ps then (2, 0, 0)
  else match s.freePin die with
    | none => (3, 0, 0)
    | some i =>
      if s.pinOverflow die (ps.map (fun p => p.1 / 4096)) then (4, 0, 0)
      else if (s.vd r.vd).pinq < s.pinnedBlocks r.vd die + ps.length / 16 then (5, 0, 0)
      else (0, die, i)

/-- A line of a window that is not resident fetched into its MSC as a plain load would, with the record of a bad one (R229,
R259, R269). -/
def Ctx.fetchPinned (c : Ctx) (s : State) (line : Nat) (leaf : Leaf) : State :=
  let g := leaf.grade.toNat
  let found := s.checkLine line 0 128 g
  if s.mscHolds line 0 128 then s
  else
    let s := (s.afterRead line 0 128 g leaf.owner).wantFill c.g.vd line 0 128 g true
    if found == .good then s else s.recordBad c.w c.g [(line, found, leaf)]

/-- The lines of a window's pages fetched. -/
def Ctx.fetchWindow (c : Ctx) (s : State) (ps : List (Nat × Leaf)) : State :=
  ps.foldl (fun s p => (List.range 32).foldl (fun s i => c.fetchPinned s (p.1 / 128 + i) p.2) s) s

/-- MSCPIN (R229). CODE 1 is given before any page is translated, so that a malformed window raises nothing (log 79). -/
def execMscpin (d a b : SReg) (s : State) : Out State :=
  scalarOp s [d.toNat] [a.toNat, b.toNat] [] fun c s =>
    let r := c.route s
    let va := c.w.s a
    let v := c.w.s b
    let blocks := bits v 31 8
    let done := fun (s : State) (code die i : Nat) =>
      c.next s (c.w.setE d (BitVec.ofNat 64 (code * 65536 + (if code = 0 then die * 16 + i else 0))))
    if va.toNat % 65536 ≠ 0 ∨ bits v 63 32 ≠ 0 ∨ blocks = 0 ∨ bits v 7 0 = 0 then done s 1 0 0
    else
      let x := s.windowPages r va (blocks * 16)
      if x.causes ≠ 0 then c.raiseMem s x.causes (x.info.getD 0)
      else
        let ps := x.parts.map (fun p => (p.pa, p.leaf))
        let k := s.pinCheck r ps
        let s := s.keepParts r x.parts
        if k.1 ≠ 0 then done s k.1 0 0
        else
          let pages := ps.map (fun p => p.1 / 4096)
          let pin : Pin := { die := k.2.1, index := k.2.2, vd := r.vd, pages := pages, fade := bits v 7 0,
                             count := bits v 7 0, hit := false }
          done (c.fetchWindow { s with pins := s.pins ++ [pin] } ps) 0 k.2.1 k.2.2

/-- MSCUNPIN: the device's own window of that handle becomes ordinary (R230). -/
def execMscunpin (a : SReg) (s : State) : Out State :=
  scalarOp s [] [a.toNat] [] fun c s =>
    let h := bits (c.w.s a) 15 0
    c.next { s with pins := s.pins.filter (fun p => !(p.die * 16 + p.index == h && p.vd == c.g.vd)) } c.w

/-- FADE_PASS of a die (R196). -/
def execFadePass (die : Nat) (s : State) : Out State :=
  .next { s with pins := s.pins.filterMap (fun p =>
    if p.die ≠ die then some p
    else if p.hit then some { p with count := p.fade, hit := false }
    else if p.count ≤ 1 then none
    else some { p with count := p.count - 1 }) }

end Sys2Proof.Machine
end

