-- ==== Sys2Proof/Machine/Launch.lean ====
section
/-! DEFINITION. Launch packets (R149, R150, R152, R303, R389), grids, and LAUNCH (R156). -/

namespace Sys2Proof.Machine

/-! ### The packet (R389) -/

/-- The 192 bits of MAP: entry i in bits 6i+5 to 6i. -/
def mapEntries (ws : List Word) (m : Nat) : List Nat :=
  let v := (ws.getD 9 0).toNat + (ws.getD 10 0).toNat * 2 ^ 64 + (ws.getD 11 0).toNat * 2 ^ 128
  (List.range m).map (fun i => v / 2 ^ (6 * i) % 64)

/-- The fields of a packet's 16 words. -/
def Packet.ofWords (ws : List Word) : Packet :=
  let w := fun i => ws.getD i 0
  { entry := w 0
    tvec := w 1
    gridX := bits (w 2) 31 0
    gridY := bits (w 2) 63 32
    gridZ := bits (w 3) 63 32
    teamLanes := bits (w 3) 31 21
    widthC := bits (w 3) 20 19
    producer := bits (w 3) 18 14
    grade := (w 3).extractLsb' 12 2
    fuse := bit (w 3) 11
    paired := bit (w 3) 10
    nt := bits (w 3) 9 3
    nv := bits (w 4) 63 56
    ns := bits (w 4) 55 49
    spu := bits (w 4) 47 40
    l1xu := bits (w 4) 39 32
    dictN := bits (w 4) 31 21
    recN := bits (w 4) 20 12
    map := mapEntries ws (bits (w 4) 11 7)
    dict := w 5
    recA := w 6
    cpl := w 7
    notify := bit (w 8) 4
    slot := (w 8).extractLsb' 0 4 }

/-- Every reserved field of a packet is zero. -/
def packetReserved (ws : List Word) : Bool :=
  let w := fun i => ws.getD i 0
  bits (w 3) 2 0 == 0 && !bit (w 4) 48 && bits (w 4) 6 0 == 0 && bits (w 8) 63 5 == 0
    && [12, 13, 14, 15].all (fun i => w i == 0)

namespace Packet

/-- W. -/
def width (p : Packet) : Nat := 32 * 2 ^ p.widthC

/-- The waves of a team (R150). -/
def waves (p : Packet) : Nat := p.teamLanes / p.width

/-- The teams of the grid. -/
def teams (p : Packet) : Nat := p.gridX * p.gridY * p.gridZ

/-- The neighbourhoods of the grid (R151). -/
def nbs (p : Packet) : Nat := (p.teams + p.map.length - 1) / p.map.length

/-- The teams of neighbourhood i (R151). -/
def nbTeams (p : Packet) (i : Nat) : Nat := min p.map.length (p.teams - i * p.map.length)

/-- The map is legal (R152). -/
def mapOk (p : Packet) : Bool :=
  decide (1 ≤ p.map.length ∧ p.map.length ≤ 24) && p.map.all (fun o => decide (o < 48))
    && decide p.map.Nodup
    && (!p.paired || p.map.all (fun o => if o % 2 = 0 then p.map.contains (o + 1) else p.map.contains (o - 1)))

/-- The limits of R149. -/
def limitsOk (p : Packet) : Bool :=
  decide (1 ≤ p.teams ∧ p.teams < 2 ^ 32) && decide (p.widthC < 3)
    && decide (1 ≤ p.teamLanes ∧ p.teamLanes ≤ 1024) && p.teamLanes % p.width == 0
    && decide (1 ≤ p.waves ∧ p.waves ≤ 32)

/-- The ranges that the table of R389 gives to the other fields (log 17). The limits of R25 are the assembler's (R26). -/
def rangesOk (p : Packet) : Bool :=
  p.entry.extractLsb' 0 1 == 0 && decide (p.dictN ≤ 1024) && decide (p.recN ≤ 256)
    && p.dict.extractLsb' 0 3 == 0 && p.recA.extractLsb' 0 3 == 0 && p.cpl.extractLsb' 0 5 == 0

/-- A team fits one core that holds no other (R150, R303). -/
def fitsAlone (p : Packet) : Bool :=
  decide (p.nt ≤ 64) && decide (768 * 1024 + p.regBytes p.waves + (p.spu + p.l1xu) * 16384 ≤ 4096 * 1024)

end Packet

/-- A packet is legal; `queued` that it arrives from a queue, where NOTIFY is illegal (R389). -/
def packetLegal (ws : List Word) (queued : Bool) : Bool :=
  let p := Packet.ofWords ws
  packetReserved ws && p.limitsOk && p.mapOk && p.rangesOk && p.fitsAlone && !(queued && p.notify)

/-! ### Grids -/

/-- The memory as its homes hold it: DRAM with the dirty bytes of the MSCs; for a replay with what it stored (R241). -/
def State.homeImage (s : State) (x : Option Nat) : Mem :=
  let m := s.msc.foldl (fun m c => flushBytes c.1 c.2 m 128) s.dram
  match x with
  | none => m
  | some n => (TabOps.get [] s.retrace.shadow n).foldl (fun m c => MemOps.write m c.1 c.2) m

/-- The die that stands for the I/O die that serves a device: 24 or 25 (R394). -/
def ioDie (vd : Nat) : Nat := 24 + vd % 2

/-- A word at a virtual address of a device as its home holds it; free where the address does not translate
(log 17). -/
def State.vdWord (s : State) (x : Option Nat) (vd : Nat) (va : Word) : Word :=
  match s.translate (ioDie vd) vd va .load with
  | .ok (_, pa) => BitVec.ofNat 64 (leValue (s.homeSeen x pa 8))
  | .error _ => Config.freeWord (Nat.pair s.free va.toNat)

/-- What a read of n bytes by the dispatcher or a command processor at an address of a device leaves, line by line: the translation in its
I/O die's TLB, and the hit, scrub, record and request at the home (R196, R199, R205, R259, R269). -/
def State.vaReads (s : State) (vd : Nat) (va : Word) (n : Nat) : State :=
  (lineRanges va.toNat n).foldl (fun s x =>
    let a := BitVec.ofNat 64 (128 * x.1 + x.2.1)
    match s.translate (ioDie vd) vd a .load with
    | .ok (_, pa) => (s.keep (ioDie vd) vd a).unitRead vd (pa / 128) (pa % 128) x.2.2
    | .error _ => s.keep (ioDie vd) vd a) s

/-- The dictionary of a grid, loaded at its launch (R85). An entry whose line is uncorrectable holds the bytes stored there
(log 45). -/
def State.readDict (s : State) (x : Option Nat) (vd : Nat) (p : Packet) : List Word :=
  (List.range p.dictN).map (fun i => s.vdWord x vd (p.dict + BitVec.ofNat 64 (8 * i)))

/-- A grid as the dispatcher accepts it (R154, R262, R391), of a replay or not. -/
def State.newGrid (s : State) (x : Option Nat) (vd : Nat) (owner : Byte) (p : Packet) (ceiling : Grade) : Grid :=
  { vd := vd, owner := owner, queue := none, parent := none, parentW := none, depth := 0, packet := p,
    launchG := Grade.min p.grade ceiling, life := .running, nextNb := 0, drain := false, early := none,
    fixed := none, replay := none, textBase := (Config.moduleText p.entry).1, textLen := (Config.moduleText p.entry).2,
    image := s.homeImage x, dict := s.readDict x vd p, state := 1, cause := 0, tpc := 0, tinfo := 0, debugged := false,
    logAt := s.writeLog.length }

/-- A grid added under the next number; its dictionary has been read (R85). -/
def State.addGrid (s : State) (g : Grid) : State :=
  let s := s.vaReads g.vd g.packet.dict (8 * g.packet.dictN)
  { s with opNext := s.opNext + 1, free := s.free + 1, grids := TabOps.put s.grids s.opNext g }

/-- The numbers of a LAUNCH: of its grid in the entry, its team, its wave and its lanes, and how many of theirs came before
it in a list (R404). -/
def birthIn (births : List (List Nat)) (key : List Nat) : List Nat := key ++ [(births.filter (fun b => b.take 5 == key)).length]

/-- A child grid of a replay: the LAUNCH of the log that it stands for gives its number, and so its places (R404). -/
def State.replayChild (s : State) (r : Nat) (key : List Nat) (g : Grid) : Grid :=
  let mine := s.grids.filter (fun x => x.2.replay.any (fun y => y.1 == r))
  let birth := birthIn (mine.map (fun x => x.2.birth)) key
  let e := TabOps.find? s.retrace.pools r
  let n := match e.bind (fun e => e.births.findIdx? (· == birth)) with
    | some i => i + 1
    | none => ((e.map (fun e => e.births.length)).getD 0) + mine.length
  { g with
    fixed := some ((e.map (fun e => TabOps.get [] e.places n)).getD [])
    replay := some (r, n)
    birth := birth }

/-- A child grid added: its number and its LAUNCH join the log entry of its parent's; in a replay it takes the places that its
LAUNCH had. -/
def State.addChild (s : State) (c : Ctx) (g : Grid) : State :=
  let key := fun (i : Nat) => [i, c.t.index, c.w.idx] ++ laneWords c.f.lanes
  let g := match c.g.replay with
    | some (r, i) => s.replayChild r (key i) g
    | none => g
  (s.logGrid c.w.grid (fun i e => { e with
    grids := e.grids ++ [s.opNext]
    births := e.births ++ [birthIn e.births (key i)] })).addGrid g

/-! ### LAUNCH (R156) -/

/-- LAUNCH: the child's grade is capped by the launching grid's (R262). -/
def execLaunch (a : SReg) (s : State) : Out State :=
  scalarOp s [] [a.toNat] [] fun c s =>
    let va := c.w.s a
    if c.w.idx ≠ 0 ∨ va.extractLsb' 0 6 ≠ 0 then c.raise s Cause.launchbad 0
    else if c.g.depth = 10 then c.raise s Cause.launchdepth 0
    else
      let r := c.route s
      let s := s.release r 4 (.child s.opNext)
      let x := s.peek r va 128
      if x.1.causes ≠ 0 then c.raiseMem s x.1.causes (x.1.info.getD 0)
      else match c.holdPort s false x.1.parts with
      | some p => c.hold s p
      | none =>
      if s.peekBad r x.1.parts then c.badScalar s (s.badLines r false x.1.parts) x.1.parts
      else
        let ws := wordsOf x.2 16
        if !packetLegal ws false then c.raise s Cause.launchbad 0
        else
          let s := (s.keepParts r x.1.parts).loadParts r 0 0 x.1.parts
          let p := Packet.ofWords ws
          let g := { s.newGrid c.g.shadow c.g.vd c.g.owner p c.g.launchG with
            parent := some c.w.grid
            parentW := if p.notify then some c.wid else none
            depth := c.g.depth + 1 }
          c.next (s.addChild c g) c.w

end Sys2Proof.Machine
end

