-- ==== Sys2Proof/Machine/Special.lean ====
section
/-! DEFINITION. SRD and SWR (R111, R342): what every special register reads and what a write to it leaves. -/

namespace Sys2Proof.Machine

/-- TEAMX, TEAMY and TEAMZ of a team number (R151). -/
def Packet.teamX (p : Packet) (t : Nat) : Nat := t % p.gridX
def Packet.teamY (p : Packet) (t : Nat) : Nat := t / p.gridX % p.gridY
def Packet.teamZ (p : Packet) (t : Nat) : Nat := t / p.gridX / p.gridY

/-- GINJ is open: the virtual device has injection enabled (R274, R382). -/
def State.injects (s : State) (g : Grid) : Bool := (s.vd g.vd).inj

/-- The writable bits of GINJ (R274). -/
def ginjFields : Word := 0x1FE0000FFFF

/-- TSTAT (R342). -/
def Wave.tstat (w : Wave) : Nat := w.ilen.toNat * 4 + (if w.drain then 2 else 0) + (if w.inh.isSome then 1 else 0)

/-- What SRD reads (R111, R342); a number not listed is refused at decode. -/
def Ctx.special (c : Ctx) (s : State) (n : Nat) : Word :=
  let w := c.w
  let p := c.g.packet
  match n with
  | 0x000 => w.flg.zeroExtend 64
  | 0x001 => w.aflg.zeroExtend 64
  | 0x002 => w.gst
  | 0x003 => w.cause
  | 0x004 => w.tpc
  | 0x005 => w.tmask.extractLsb' 0 64
  | 0x006 => w.tmask.extractLsb' 64 64
  | 0x007 => w.evpend.zeroExtend 64
  | 0x008 => w.evmask.zeroExtend 64
  | 0x009 => p.tvec
  | 0x00A => s.cycleOf w
  | 0x00B => w.tinfo
  | 0x00C => BitVec.ofNat 64 w.tstat
  | 0x020 => BitVec.ofNat 64 w.idx
  | 0x021 => BitVec.ofNat 64 c.t.waves.length
  | 0x022 => BitVec.ofNat 64 w.width
  | 0x023 => BitVec.ofNat 64 (p.teamX c.t.index)
  | 0x024 => BitVec.ofNat 64 (p.teamY c.t.index)
  | 0x025 => BitVec.ofNat 64 (p.teamZ c.t.index)
  | 0x026 => BitVec.ofNat 64 p.gridX
  | 0x027 => BitVec.ofNat 64 p.gridY
  | 0x028 => BitVec.ofNat 64 p.gridZ
  | 0x029 => BitVec.ofNat 64 (w.die * 64 + w.core)
  | 0x02A => BitVec.ofNat 64 c.t.mapSlot
  | 0x02B => BitVec.ofNat 64 c.g.depth
  | 0x030 => if s.injects c.g then w.ginj else 0
  | n => if 0x010 ≤ n ∧ n ≤ 0x01F then w.evv.getD (n - 0x010) 0 else 0

/-- SRD (R111). -/
def execSrd (d : SReg) (n : BitVec 12) (s : State) : Out State :=
  scalarOp s [d.toNat] [] [] fun c s => c.next s (c.w.setE d (c.special s n.toNat))

/-- GST after a write: DISAGREE, DILCNT and DIL are writable (R46). -/
def gstWrite (old v : Word) : Word :=
  setBits (setBits (setBits old 47 32 (bits v 47 32)) 31 16 (bits v 31 16)) 2 2 (bits v 2 2)

/-- CAUSE written; the origin latch is emptied when INTEG goes from 1 to 0 (R268, R341). -/
def Wave.writeCause (w : Wave) (v : Word) : Wave :=
  let v := v &&& Cause.fields
  { w with
    cause := v
    origin := if bit w.cause 10 && !bit v 10 then none else w.origin }

/-- AFLG written: its enables and flags, but not its reserved bits (R46). -/
def Wave.writeAflg (w : Wave) (v : Word) : Wave :=
  { w with aflg := v.extractLsb' 8 6 ++ w.aflg.extractLsb' 6 2 ++ v.extractLsb' 0 6 }

/-- A wave after SWR; a number that is not writable is refused at decode (R111). -/
def Ctx.writeSpecial (c : Ctx) (s : State) (n : Nat) (v : Word) : Wave :=
  let w := c.w
  match n with
  | 0x000 => { w with flg := v.extractLsb' 0 4 }
  | 0x001 => w.writeAflg v
  | 0x002 => { w with gst := gstWrite w.gst v }
  | 0x003 => w.writeCause v
  | 0x004 => { w with tpc := v }
  | 0x005 => { w with tmask := (w.tmask.extractLsb' 64 64 ++ v) &&& w.all }
  | 0x006 => { w with tmask := if w.width = 128 then v ++ w.tmask.extractLsb' 0 64 else w.tmask }
  | 0x030 => if s.injects c.g then { w with ginj := v &&& ginjFields } else w
  | _ => w

/-- SWR (R111). -/
def execSwr (a : SReg) (n : BitVec 12) (s : State) : Out State :=
  scalarOp s [] [a.toNat] [] fun c s => c.next s (c.writeSpecial s n.toNat (c.w.s a))

end Sys2Proof.Machine
end

