-- ==== Sys2Proof/Machine/Sys.lean ====
section
/-! DEFINITION. The SYS group (R347 to R350) and the answers of the resident kernel: to a page fault (R343), to a
system call (R348), and from a debugger (R349). -/

namespace Sys2Proof.Machine

/-- TRAP (R347). -/
def execTrap (k : BitVec 10) (s : State) : Out State :=
  withEnd s fun c => c.raise s Cause.trap (k.zeroExtend 64)

/-- BRK (R347, R349). -/
def execBrk (k : BitVec 10) (s : State) : Out State :=
  withEnd s fun c => c.raise s Cause.brk (k.zeroExtend 64)

/-- TRET (R346). -/
def execTret (s : State) : Out State := withEnd s fun c => c.trapReturn s

/-- CAUSECLR (R347); clearing INTEG empties the origin latch (R268). -/
def execCauseclr (b : BitVec 6) (s : State) : Out State :=
  withEnd s fun c => c.next s { c.w with
    cause := c.w.cause &&& ~~~BitVec.ofNat 64 (2 ^ b.toNat)
    origin := if b = 10 then none else c.w.origin }

/-- The lanes poisoned in some allocated vector register. -/
def Wave.anyPoison (w : Wave) : LaneMask := (w.vregs.take w.nv).foldl (fun p v => p ||| v.poison) 0

/-- TFENCE (R350): poison in the fragment's lanes, then the flags that are enabled. -/
def execTfence (s : State) : Out State :=
  withEnd s fun c =>
    let e := c.w.aflg.extractLsb' 0 6 &&& c.w.aflg.extractLsb' 8 6
    let causes : Word := (e.zeroExtend 64) <<< 32
    if c.w.anyPoison &&& c.f.lanes ≠ 0 then c.consume s causes 0 false
    else if e ≠ 0 then c.raise s causes 0
    else c.next s c.w

/-! ### System calls (R348) -/

/-- The argument registers of a call: V2 to V9. -/
def callRegs : List Nat := [2, 3, 4, 5, 6, 7, 8, 9]

/-- The four arguments of a lane. -/
def Wave.callArgs (w : Wave) (l : Nat) : List Word :=
  [2, 4, 6, 8].map (fun r => (w.v (r + 1)).lane l ++ (w.v r).lane l)

/-- The active lanes whose argument registers hold no poison. -/
def Ctx.callLanes (c : Ctx) : LaneMask :=
  c.f.mask &&& ~~~(callRegs.foldl (fun p r => p ||| (c.w.v r).poison) (0 : LaneMask))

/-- The numbers under which a fragment's calls are logged: its grid in the entry, its team, its wave, its lanes (R403). -/
def Call.numbers (c : Call) (i : Nat) : List Nat := [i, c.team, c.idx] ++ laneWords c.fragLanes

/-- The calls of a call's fragment that a log already holds. -/
def State.callsLogged (s : State) (c : Call) : Nat :=
  (s.retrace.log.findSome? (fun e => (e.grids.findIdx? (· == c.grid)).map (fun i =>
    (e.sysc.filter (fun x => x.1.take 5 == c.numbers i)).length))).getD 0

/-- A call under Retrace: in a replay it takes the results of the fragment's next logged call, else it takes its place in the
log (R403, R404). -/
def State.openCall (s : State) (c : Call) : State × Call :=
  match (TabOps.find? s.grids c.grid).bind Grid.replay with
  | some (r, i) =>
    let e := TabOps.find? s.retrace.pools r
    let mine := fun (x : List Nat × List Word) => x.1.take 5 == c.numbers i
    let pools := match e with
      | some e => TabOps.put s.retrace.pools r { e with sysc := e.sysc.eraseP mine }
      | none => s.retrace.pools
    ({ s with retrace := { s.retrace with pools := pools } },
      { c with
        shadow := some r
        logged := some (((e.bind (fun e => e.sysc.find? mine)).map Prod.snd).getD []) })
  | none =>
    let n := s.callsLogged c
    (s.logGrid c.grid (fun i e => { e with sysc := e.sysc ++ [(c.numbers i ++ [n], [])] }), { c with nth := n })

/-- SYSC (R348): a release at system scope, then the call is with the kernel; a synchronous one parks. -/
def execSysc (k : BitVec 10) (s : State) : Out State :=
  scalarOp s [] [1, 2] callRegs fun c s =>
    let m := c.w.s 1
    if m >>> 1 ≠ 0 then c.raise s Cause.illop 0
    else
      let s := s.release (c.route s) 6 (.issue s.opNext)
      let sync := m == 0
      let call : Call := { wave := c.wid, frag := c.fid, code := k, lanes := c.callLanes,
                           args := (laneList c.w.width c.callLanes).map c.w.callArgs, sync := sync, area := c.w.s 2,
                           die := c.w.die, width := c.w.width, vd := c.g.vd, grid := c.w.grid, team := c.t.index,
                           idx := c.w.idx, fragLanes := c.f.lanes }
      let id := s.opNext
      let x := s.openCall call
      let s := { x.1 with
        opNext := id + 1
        calls := TabOps.put s.calls id x.2 }
      if sync then c.wait s c.w (.sysc id) else c.next s c.w

/-- The result of the n-th served lane: an unknown service gives -38 (R348). -/
def Call.result (c : Call) (results : List Word) (n : Nat) : Word :=
  if c.code.toNat ≤ 7 then results.getD n 0 else BitVec.ofInt 64 (-38)

/-- Lane values of the served lanes' results. -/
def Call.laneValues (c : Call) (w : Nat) (results : List Word) (g : Word → Lane) : List Lane :=
  (List.range w).map (fun l =>
    if c.lanes.getLsbD l then g (c.result results (((laneList w c.lanes).filter (· < l)).length)) else 0)

/-- Bytes of one page that the kernel writes, as an agent, at a virtual address of a device, for a replay or not (R241);
nothing where the address is not mapped. -/
def State.kernelPiece (s : State) (x : Option Nat) (who : Spot) (die vd : Nat) (va : Word) (bs : List Byte) : State :=
  if bs.isEmpty then s
  else match s.translate die vd va .store with
    | .ok (_, pa) => (s.keep die vd va).homeStore x who pa bs
    | .error _ => s.keep die vd va

/-- Bytes that the kernel writes from a virtual address up, of two pages at most. -/
def State.kernelBytes (s : State) (x : Option Nat) (who : Spot) (die vd : Nat) (va : Word) (bs : List Byte) : State :=
  let n := 4096 - va.toNat % 4096
  (s.kernelPiece x who die vd va (bs.take n)).kernelPiece x who die vd (va + BitVec.ofNat 64 n) (bs.drop n)

/-- The kernel's writes for a call. -/
def State.kernelWrites (s : State) (who : Spot) (c : Call) (writes : List (Nat × Byte)) : State :=
  if c.code.toNat ≤ 7 then writes.foldl (fun s x => s.homeWriteBy who x.1 [x.2] true) s else s

/-- The results of an asynchronous call, 8 bytes for each served lane, then the slots bound to KIND 5 (R348). They are
written also when the wave's team has retired. -/
def State.asyncResults (s : State) (who : Spot) (c : Call) (results : List Word) : State :=
  let s := (laneList c.width c.lanes).foldl (fun s l =>
    s.kernelBytes c.shadow who c.die c.vd (c.area + BitVec.ofNat 64 (8 * l))
      (leBytes (c.result results (((laneList c.width c.lanes).filter (· < l)).length)).toNat 8)) s
  s.modWave c.wave (fun w => w.markWhere (fun b => b.kind == 5))

/-- A call under Retrace completes: in a replay with the logged results and no service, else its results join their place
in the log (R403, R404). -/
def State.retraceCall (s : State) (c : Call) (results : List Word) (writes : List (Nat × Byte)) :
    State × List Word × List (Nat × Byte) :=
  match c.logged with
  | some rs => (s, rs, [])
  | none =>
    (s.logGrid c.grid (fun i e => { e with sysc := e.sysc.map (fun x =>
      if x.1 == c.numbers i ++ [c.nth] then (x.1, results) else x) }), results, writes)

/-- The words of an entry of the Retrace log: queue, command, packet, inputs with their digests, and the results of the
system calls (R403). -/
def LogEntry.words (e : LogEntry) : List Word :=
  BitVec.ofNat 64 e.queue :: e.command ++ e.packet
    ++ e.inputs.flatMap (fun i => [i.1, BitVec.ofNat 64 i.2.1] ++ wordsOf i.2.2 8)
    ++ e.sysc.flatMap (fun x => x.1.map (BitVec.ofNat 64) ++ x.2)

/-- An entry appended to the ring at RTBASE (R403; log 62). -/
def State.ringLog (s : State) (e : LogEntry) : State :=
  let bs := Config.logBytes e.words
  let s := bs.zipIdx.foldl (fun s b =>
    s.homeWrite (s.retrace.rtbase + (s.retrace.pos + b.2) % Config.logRing) [b.1] true) s
  { s with retrace := { s.retrace with pos := (s.retrace.pos + bs.length) % Config.logRing } }

/-- The entry of a logged launch is complete: its grid has retired, and no call of its grids, which may outlive them, is with
the kernel (R403). -/
def State.ringReady (s : State) (e : LogEntry) : Bool :=
  !e.rung && (e.grids.head?.bind (TabOps.find? s.grids)).any (fun g => g.life == .retired)
    && s.calls.all (fun c => !e.grids.contains c.2.grid)

/-- The entries that are complete and not in the ring go there (R403). -/
def State.ringDue (s : State) : State :=
  let done := s.retrace.log.filter s.ringReady
  let t := done.foldl State.ringLog s
  { t with retrace := { t.retrace with
      log := t.retrace.log.map (fun e => { e with rung := e.rung || s.ringReady e }) } }

/-- The results of the clock service: the module's nanoseconds (R348). -/
def State.served (s : State) (c : Call) (results : List Word) : List Word :=
  if c.code = 7 then (laneList c.width c.lanes).map (fun _ => s.clock) else results

/-- SYSC_COMPLETION (R348). `results` are the kernel's, one for each served lane in rising order; `writes` the bytes
that the service stored. -/
def execSyscCompletion (call : Nat) (results : List Word) (writes : List (Nat × Byte)) (s : State) : Out State :=
  match TabOps.find? s.calls call with
  | none => .next s
  | some c =>
    let s0 : State := { s with calls := TabOps.drop s.calls call }
    let who := Spot.of call
    let x := s0.retraceCall c (s0.served c results) writes
    let results := x.2.1
    let s := (x.1.ringDue.kernelWrites who c x.2.2).note (.completed call c.wave 4 0 none)
    if !c.sync then .next (s.asyncResults who c results)
    else match TabOps.find? s.waves c.wave with
    | none => .next s
    | some w =>
      match w.frag? c.frag, TabOps.find? s.teams w.team, TabOps.find? s.grids w.grid with
      | some f, some t, some g =>
        if f.park = .sysc call then
          let w := w.setPair c.lanes 2 (c.laneValues w.width results (·.extractLsb' 0 32))
            (c.laneValues w.width results (·.extractLsb' 32 32)) w.eg 0
          let s := s.acquire (s.routeOf c.wave w t g) 6 [.call call]
          .next (s.setWave c.wave (w.setFrag c.frag (f.at' (f.pc + BitVec.ofNat 64 f.plen))))
        else .next s
      | _, _, _ => .next s

/-! ### Page faults and the debugger (R343, R349) -/

/-- A fragment of a saved wave begins to wait: it is younger than those that waited at the save, from whose cycle all
count (R344, R354). -/
def Wave.aged (w : Wave) : Wave :=
  if w.life = .saved then { w with frags := w.frags.map (Option.map fun f => { f with since := f.since - 1 }) } else w

/-- PAGE_FAULT_RESOLUTION (R343): mapped, the bits XLATE and PERM are cleared and the instruction executes again;
declined, the causes are delivered. -/
def execPageFaultResolution (wid fid : Nat) (mapped : Bool) (s : State) : Out State :=
  match TabOps.find? s.waves wid with
  | none => .next s
  | some w =>
    match w.frag? fid with
    | none => .next s
    | some f =>
      match f.park with
      | .pageFault causes tinfo =>
        if mapped then
          .next (s.setWave wid
            ({ w with cause := w.cause &&& ~~~(causes &&& (Cause.xlate ||| Cause.perm)) }.setFrag fid
              { f with park := .ready, plen := 0, waited := [] }))
        else .next ((s.modWave wid Wave.aged).deliverOrPark wid fid f.plen causes tinfo)
      | _ => .next s

/-- The lanes of the fragments of a split table, and whether they lie in one fragment each. -/
def tableLanes (frags : List (Option Fragment)) : LaneMask × Bool :=
  (frags.filterMap id).foldl (fun x f => (x.1 ||| f.lanes, x.2 && x.1 &&& f.lanes == 0)) (0, true)

/-- A split table as R38 and R158 have it, for the lanes that a wave's fragments hold: disjoint lane sets that cover them,
masks within them, even addresses and lengths, records that are there. -/
def Wave.tableOk (w : Wave) (frags : List (Option Fragment)) (recs : List (Option Rec)) : Bool :=
  frags.length == w.frags.length && recs.length == w.recs.length
    && tableLanes frags == ((tableLanes w.frags).1, true)
    && (frags.filterMap id).all (fun f => f.mask &&& ~~~f.lanes == 0 && !f.pc.getLsbD 0 && f.plen % 2 == 0
      && f.rec?.all (fun q => (recs.getD q none).isSome))
    && (recs.filterMap id).all (fun r => !r.addr.getLsbD 0 && r.call.all (fun k => !k.callPc.getLsbD 0)
      && r.parent.all (fun q => (recs.getD q none).isSome))

/-- A part of a wave's state as a debugger writes it (R349): fields that are read only keep their values (R46, R274,
R341), S0 stays 0, addresses stay aligned (R38, R87), lists keep their lengths, and a split table that is none is not
taken (R158). -/
def Wave.debugWrite (w : Wave) : WaveWrite → Wave
  | .s n v => if n = 0 then w else { w with sregs := setAt w.sregs n v }
  | .v n v => { w with vregs := setAt w.vregs n { v with
      lanes := (List.range w.width).map (fun l => v.lanes.getD l 0)
      poison := v.poison &&& w.all } }
  | .flg v => { w with flg := v }
  | .aflg v => w.writeAflg (v.zeroExtend 64)
  | .gst v => { w with gst := gstWrite w.gst v }
  | .cause v => w.writeCause v
  | .tpc v => { w with tpc := v }
  | .tmask v => { w with tmask := v &&& w.all }
  | .tinfo v => { w with tinfo := v }
  | .ilen v => { w with ilen := v }
  | .inh v => if v.all (fun i => (w.frag? i).isSome) then { w with inh := v } else w
  | .ginj v => { w with ginj := v &&& ginjFields }
  | .evpend v => { w with evpend := v }
  | .evmask v => { w with evmask := v }
  | .evovf v => { w with evovf := v }
  | .evv k v => { w with evv := setAt w.evv k (v &&& ~~~3) }
  | .bind k b => { w with binds := setAt w.binds k b }
  | .count k n scope => { w with counts := setAt w.counts k n, tokScope := setAt w.tokScope k scope }
  | .table frags recs => if w.tableOk frags recs then { w with frags := frags, recs := recs } else w
  | .batch k b => { w with batches := setAt w.batches k b }
  | .pending regs => { w with pendRegs := regs }
  | .nbar k v => { w with nbarRec := setAt w.nbarRec k v }
  | .origin v => { w with origin := v }

/-- The fragment is held for a debugger. -/
def isDebugged : Park → Bool
  | .debugger _ => true
  | _ => false

/-- A part of a wave's state that a debugger may write: GINJ only with injection enabled for the grid's device (R274). -/
def State.debugMay (s : State) (w : Wave) : WaveWrite → Bool
  | .ginj _ => (TabOps.find? s.grids w.grid).any s.injects
  | _ => true

/-- The kernel writes a part of the state of a wave whose break it has taken (R349). -/
def State.debugWrite (s : State) (wid : Nat) (x : WaveWrite) : State :=
  s.modWave wid (fun w => if w.live.any (fun f => isDebugged f.2.park) && s.debugMay w x then w.debugWrite x else w)

/-- DEBUGGER_RESUME (R349): as TRET would, with the PC and MASK that the debugger gives. -/
def execDebuggerResume (wid fid : Nat) (pc : Word) (mask : LaneMask) (s : State) : Out State :=
  match TabOps.find? s.waves wid with
  | none => .next s
  | some w =>
    match w.frag? fid with
    | none => .next s
    | some f =>
      match f.park with
      | .debugger _ =>
        .next (s.setWave wid ((s.endChainFor wid fid w).setFrag fid { f.at' (pc &&& ~~~1) with mask := mask &&& f.lanes }))
      | _ => .next s

end Sys2Proof.Machine
end

