-- ==== Sys2Proof/Machine/Place.lean ====
section
/-! DEFINITION. The dispatcher: placing neighbourhoods and starting their waves (R44, R150 to R153, R171, R390,
R391), and retiring teams and grids (R154, R156, R157, R389). -/

namespace Sys2Proof.Machine

/-! ### Room on a core (R86, R150, R192, R303, R405) -/

/-- The waves of a team of n waves that run on sector k (R150). -/
def sectorWaves (n k : Nat) : Nat := (n + 3 - k) / 4

/-- The wave slots taken in sector k of a core. -/
def State.slotsTaken (s : State) (key k : Nat) : Nat :=
  (s.residents key).foldl (fun n t => n + sectorWaves t.2.waves.length k) 0

/-- The tile halves taken on a core. -/
def State.halvesTaken (s : State) (key : Nat) : Nat :=
  (s.residents key).foldl (fun n t => n + t.2.tiles.length) 0

/-- The residents of a core use no dictionary table, or the packet's (R86). -/
def State.dictFits (s : State) (key : Nat) (p : Packet) : Bool :=
  p.dictN == 0 || (s.residents key).all (fun t =>
    match TabOps.find? s.grids t.2.grid with
    | some g => g.packet.dictN == 0 || (g.packet.dict == p.dict && g.packet.dictN == p.dictN)
    | none => true)

/-- A placed neighbourhood with a fused L1 names the core (R192). -/
def State.fusedHere (s : State) (key : Nat) : Bool :=
  s.nbs.any (fun n => (n.2.life == .placed || n.2.life == .stopping)
    && (TabOps.find? s.grids n.2.grid).any (fun g => (s.fusedCores g n.1).contains key))

/-- A core has room for one more team of a grid, whose scratchpad and extra L1 are given in bytes (R150, R303). The size of a
sector's scalar file is not given: it is never short, the model's choice (log 64). -/
def State.coreFits (s : State) (key : Nat) (p : Packet) (carve : Nat) : Bool :=
  !(s.core key).fenced && !s.fusedHere key && s.dictFits key p
    && (List.range 4).all (fun k => decide (s.slotsTaken key k + sectorWaves p.waves k ≤ 16))
    && decide (s.halvesTaken key + p.nt ≤ 64)
    && decide (s.arrayUsed key 0 + p.regBytes p.waves + carve ≤ 4096 * 1024)

/-! ### Room on a die (R152, R153, R401, R402) -/

/-- Twilight service has not ended: an unfenced die is untrained, or a port neither enumerated nor fenced (R401). -/
def State.twilightOn (s : State) : Bool :=
  (List.range 24).any (fun d => (s.die d).service != .fenced && !(s.die d).trained)
    || s.cxl.any (fun p => !p.enumerated && !p.fenced)

/-- The dispatcher may place teams on a die: it serves, and no switch to full service is pending (R401, R402). -/
def State.diePlaces (s : State) (d : Nat) : Bool :=
  match (s.die d).service with
  | .full => true
  | .twilight => s.twilightOn
  | .held | .resetting | .fenced => false

/-- The map, with its origin at core `o`, lies on the 8 × 6 mesh; paired launches have an even column (R152, R153). -/
def Packet.onMesh (p : Packet) (o : Nat) : Bool :=
  p.map.all (fun e => decide (e % 8 + o % 8 < 8 ∧ e / 8 + o / 8 < 6)) && !(p.paired && o % 2 == 1)

/-- Every core that a neighbourhood of n teams uses has room, and none that its map names is fenced (R405); a fused one's
named cores hold no team (R153, R192).
`carve` gives the bytes of each team's scratchpad and extra L1. -/
def State.originFits (s : State) (p : Packet) (n die o : Nat) (carve : Nat → Nat) : Bool :=
  p.onMesh o
    && (List.range n).all (fun j => s.coreFits (coreKey die (placeCore o (p.map.getD j 0))) p (carve j))
    && (p.coresAt die o).all (fun key => !(s.core key).fenced)
    && (!p.fuse || (p.coresAt die o).all (fun key => (s.residents key).isEmpty))

/-- The first origin of a die that fits, by row and then by column (R391). -/
def State.findOrigin (s : State) (p : Packet) (n die : Nat) (carve : Nat → Nat) : Option Nat :=
  (List.range 48).find? (fun o => s.originFits p n die o carve)

/-- The bytes that every team of a packet carves out. -/
def Packet.carveBytes (p : Packet) : Nat → Nat := fun _ => (p.spu + p.l1xu) * 16384

/-! ### Starting teams and waves (R38, R44, R153, R171) -/

/-- The handle of a wave on a core with a slot and a generation (R171). -/
def handleOf (core slot : Nat) (gen : BitVec 12) : BitVec 24 :=
  BitVec.ofNat 24 (core * 2 ^ 18 + slot * 2 ^ 12 + gen.toNat)

/-- The next generation of a slot whose handle no running or saved wave of the die holds (R171). -/
def State.nextGen (s : State) (die core slot : Nat) (g : BitVec 12) : Nat → BitVec 12
  | 0 => g + 1
  | n + 1 => if (s.byHandle die (handleOf core slot (g + 1))).isSome then s.nextGen die core slot (g + 1) n else g + 1

/-- The free slots of a sector of a core: those that no wave of a team there holds, an ended one included (R157). -/
def State.freeSlotsOf (s : State) (key k : Nat) : List Nat :=
  let taken := ((s.residents key).flatMap (fun t => t.2.waves)).filterMap (fun i =>
    ((TabOps.find? s.waves i).filter (fun w => w.life != .saved && w.key == key)).map Wave.slot)
  ((List.range 16).map (· + k * 16)).filter (fun x => !taken.contains x)

/-- The slot that a wave of sector k takes, which one is free, and the core's generations after it; only a new wave,
which gets a handle, skips generations (R171, log 5). -/
def State.takeSlot (s : State) (die core k : Nat) (new : Bool) : State × Nat × BitVec 12 :=
  let key := coreKey die core
  let open' := s.freeSlotsOf key k
  let slot := open'.getD (Config.freeChoice s.free % open'.length) (k * 16)
  let c := s.core key
  let gen := if new then s.nextGen die core slot (c.gens.getD slot 0) 4096 else c.gens.getD slot 0 + 1
  let s' := s.setCore key { c with gens := setAt c.gens slot gen }
  ({ s' with free := s'.free + 1 }, slot, gen)

/-- The first fragment of a wave: every lane, at an address (R158). -/
def Fragment.first (w : Nat) (pc : Word) : Fragment :=
  { lanes := BitVec.ofNat 128 (2 ^ w - 1), mask := BitVec.ofNat 128 (2 ^ w - 1), pc := pc, rec? := none,
    park := .ready, since := 0, wait := 0, plen := 0, waited := [], yielded := false }

/-- A wave at its start (R38, R44). -/
def Wave.start (gid nb tid idx : Nat) (p : Packet) (L : Grade) (die core slot : Nat) (gen : BitVec 12) : Wave :=
  { grid := gid, nb := nb, team := tid, idx := idx, width := p.width, life := .running,
    handle := handleOf core slot gen, issueDie := die, die := die, core := core, slot := slot,
    nv := p.nv, ns := p.ns, launchG := L,
    sregs := List.replicate 64 ⟨0, L⟩, vregs := List.replicate p.nv ⟨List.replicate p.width 0, L, 0⟩,
    latches := [], chainFrag := 0, chainDis := false, alts := [], flg := 0, aflg := 0,
    gst := L.zeroExtend 64, egNext := none, cause := 0, tpc := 0, tmask := 0, tinfo := 0, ilen := 0, inh := none,
    drain := false, evpend := 0, evmask := 0, evv := List.replicate 16 0,
    binds := List.replicate 16 Binding.none, counts := List.replicate 16 0, tokScope := List.replicate 16 0,
    evovf := false, frags := some (Fragment.first p.width p.entry) :: List.replicate 7 none,
    recs := List.replicate 7 none, origin := none, ginj := 0,
    batches := List.replicate 4 { cl := 0, dn := 0, opened := [], closed := [] },
    tileBad := [], tileOpen := false, pendRegs := [], nbarRec := List.replicate 16 none, issued := 0 }

/-- A tile half at its team's start (R303). -/
def Tile.start (L : Grade) : Tile := { vals := [], tag := L, poison := false, origin := 0, queue := [] }

/-- A team at its start, without its waves (R169, R187, R193, R296, R303). -/
def Team.start (gid nb index slot : Nat) (p : Packet) (L : Grade) (die core : Nat) : Team :=
  { grid := gid, nb := nb, index := index, mapSlot := slot, life := .running, die := die, core := core, waves := [],
    spSize := p.spu * 16384, l1x := p.l1xu * 16, sp := [], spTag := [], spPois := [],
    tiles := List.replicate p.nt (Tile.start L),
    nbars := List.replicate 16 { phase := 0, open? := none }, cbs := List.replicate 8 none }

/-- A number given out. -/
def State.fresh (s : State) : State × Nat := ({ s with opNext := s.opNext + 1 }, s.opNext)

/-- One wave of a team started; a wave of a child grid acquires at die scope (R234). -/
def State.startWave (s : State) (gid nb tid : Nat) (p : Packet) (L : Grade) (die core idx : Nat) : State :=
  let x := s.takeSlot die core (idx % 4) true
  let y := x.1.fresh
  let w := Wave.start gid nb tid idx p L die core x.2.1 x.2.2
  let s := (y.1.setWave y.2 w).modTeam tid (fun t => { t with waves := t.waves ++ [y.2] })
  match TabOps.find? s.teams tid, TabOps.find? s.grids gid with
  | some t, some g => if g.parent.isSome then s.acquire (s.routeOf y.2 w t g) 4 [.child gid] else s
  | _, _ => s

/-- A core's dictionary RAM takes the table that its grid's launch read, unless a team that is resident there has loaded
the same table (R85, R86). -/
def State.loadDict (s : State) (gid key : Nat) (p : Packet) : State :=
  if p.dictN = 0 then s
  else
    let shared := (s.residents key).any (fun t => (TabOps.find? s.grids t.2.grid).any (fun g =>
      t.2.grid != gid && g.packet.dictN == p.dictN && g.packet.dict == p.dict))
    if shared && (s.core key).dict.isSome then s
    else s.setCore key { s.core key with
      dict := some (p.dict, ((TabOps.find? s.grids gid).map Grid.dict).getD []) }

/-- One team of a neighbourhood started: its waves, and its table in the core's dictionary RAM (R85, R86). -/
def State.startTeam (s : State) (gid nb index slot : Nat) (p : Packet) (L : Grade) (die o : Nat) : State :=
  let core := placeCore o (p.map.getD slot 0)
  let key := coreKey die core
  let y := s.fresh
  let s := y.1.setTeam y.2 (Team.start gid nb index slot p L die core)
  let s := s.loadDict gid key p
  let s := (List.range p.waves).foldl (fun s i => s.startWave gid nb y.2 p L die core i) s
  { s with nbs := TabOps.mapVals (fun i n => if i = nb then { n with teams := n.teams ++ [y.2] } else n) s.nbs }

/-- The L1s of a fused neighbourhood written back and emptied, at placement and at retirement (R192). -/
def State.flushFused (s : State) (p : Packet) (die o : Nat) : State :=
  if p.fuse then (p.coresAt die o).foldl (fun s key => s.flushL1 key) s else s

/-- Neighbourhood i of a grid placed with its origin at core o of a die: all waves start in one step. In Twilight
service the grid's grade is capped at 1 (R401), and stays so (R402). -/
def State.placeNb (s : State) (gid : Nat) (g : Grid) (i die o : Nat) : State :=
  let p := g.packet
  let L := if (s.die die).service == .twilight then Grade.min g.launchG 1 else g.launchG
  let y := (s.flushFused p die o).fresh
  let s := (y.1.setGrid gid { g with nextNb := i + 1, launchG := L }).logGrid gid
    (fun k e => { e with places := TabOps.put e.places k (TabOps.get [] e.places k ++ [(die, o)]) })
  let n : Nb := { grid := gid, index := i, life := .placed, die := die, origin := o, teams := [], image := none,
                  imageLen := 0, saveNo := 0 }
  let s : State := { s with nbs := TabOps.put s.nbs y.2 n }
  (List.range (p.nbTeams i)).foldl (fun s j => s.startTeam gid y.2 (i * p.map.length + j) j p L die o) s

/-! ### Choosing a place (R390, R391, R404) -/

/-- After an early consumer's placement, the die still fits the producer's next neighbourhood (R390). -/
def State.keepsRoom (s : State) (g : Grid) (die : Nat) : Bool :=
  match g.early.bind (fun i => TabOps.find? s.grids i) with
  | none => true
  | some q => q.life != .running || decide (q.packet.nbs ≤ q.nextNb)
      || (s.findOrigin q.packet (q.packet.nbTeams q.nextNb) die q.packet.carveBytes).isSome

/-- A place for the next neighbourhood at a die, whose origin is chosen or given. -/
def State.tryDie (s : State) (gid : Nat) (g : Grid) (i die : Nat) (o? : Option Nat) : Option State :=
  if !((s.vd g.vd).dies.getLsbD die) || !s.diePlaces die then none
  else
    match o?.orElse (fun _ => s.findOrigin g.packet (g.packet.nbTeams i) die g.packet.carveBytes) with
    | none => none
    | some o =>
      if !s.originFits g.packet (g.packet.nbTeams i) die o g.packet.carveBytes then none
      else
        let s' := s.placeNb gid g i die o
        if s'.keepsRoom g die then some s' else none

/-- Every placed team of a grid has retired or been saved: its drain ends (R352). -/
def State.drainOver (s : State) (gid : Nat) : Bool :=
  s.nbs.all (fun n => n.2.grid != gid || n.2.life == .done || n.2.life == .saved
    || n.2.teams.all (fun t => (TabOps.find? s.teams t).all (fun t => t.life == .retired)))

/-- A grid whose drain has ended with nothing saved goes on with its next team; one with saved teams goes on when they
are restored (R352, R354; log 9). -/
def State.goesOn (s : State) (gid : Nat) (g : Grid) : Bool :=
  !g.drain || (s.drainOver gid && s.nbs.all (fun n => n.2.grid != gid || n.2.life != .saved))

/-- DISPATCH_NEIGHBOURHOOD: the next neighbourhood of a grid at the first die and origin that fit (R153, R391), or, in
a replay, at its logged place (R404). -/
def execDispatchNeighbourhood (gid : Nat) (s : State) : Out State :=
  match TabOps.find? s.grids gid with
  | none => .next s
  | some g =>
    let i := g.nextNb
    if g.life != .running || !s.goesOn gid g || decide (g.packet.nbs ≤ i) then .next s
    else
      let g := { g with drain := false }
      match g.fixed.bind (fun ps => ps[i]?) with
      | some (die, o) => .next ((s.tryDie gid g i die (some o)).getD s)
      | none => .next (((List.range 24).findSome? (fun die => s.tryDie gid g i die none)).getD s)

/-! ### Teams retire (R157, R192, R295, R318) -/

/-- A tile half of the team has an operation in its queue. -/
def Team.tileBusy (t : Team) : Bool :=
  t.tiles.any (fun x => x.queue.any (fun e =>
    match e with
    | .op _ => true
    | .reader _ _ => false))

/-- A neighbourhood all of whose teams have retired is done; a fused one's L1s are emptied (R192). -/
def State.checkNb (s : State) (nb : Nat) : State :=
  match TabOps.find? s.nbs nb with
  | none => s
  | some n =>
    if n.teams.all (fun t => (TabOps.find? s.teams t).all (fun t => t.life == .retired)) then
      let s : State := { s with nbs := TabOps.put s.nbs nb { n with life := NbLife.done } }
      match TabOps.find? s.grids n.grid with
      | some g => s.flushFused g.packet n.die n.origin
      | none => s
    else s

/-- TEAM_RETIRE: an ended team without operations in flight frees its slots, halves and carve-out (R157, R187). -/
def execTeamRetire (tid : Nat) (s : State) : Out State :=
  match TabOps.find? s.teams tid with
  | none => .next s
  | some t =>
    if t.life != .ended || !(s.teamOps tid).isEmpty || t.tileBusy then .next s
    else
      let s1 : State := { s with waves := t.waves.foldl (fun ws i => TabOps.drop ws i) s.waves }
      let s2 := s1.setTeam tid { t with
        life := .retired
        sp := []
        spTag := []
        spPois := []
        tiles := []
        cbs := [] }
      .next ((s2.shrinkL1 (coreKey t.die t.core)).checkNb t.nb)

/-! ### Queue words (R383, R386, R387) -/

/-- A queue that has never been bound. -/
def Queue.unbound : Queue :=
  { state := 0, err := 0, head := 0, next := 0, tail := 0, logn := 0, ring := 0, qcb := 0, vd := 0, prio := 0,
    gceil := 0, policy := 0, running := [], closing := false, picked := false, stamps := [] }

/-- A queue as the state holds it. -/
def State.queue (s : State) (q : Nat) : Queue := TabOps.get Queue.unbound s.queues q

/-- A queue replaced, and HEAD, ERR and STATE written to its control block. -/
def State.setQueue (s : State) (q : Nat) (x : Queue) : State :=
  let s : State := { s with queues := TabOps.put s.queues q x }
  s.kernelBytes none (Spot.of 0) (ioDie x.vd) x.vd (x.qcb + 8)
    (leBytes x.head.toNat 8 ++ leBytes (x.err * 2 ^ 56 + x.state) 8)

/-- A queue put in error; a queue already in error keeps its code (R387, log 18). -/
def State.queueError (s : State) (q : Nat) (e : Nat) : State :=
  let x := s.queue q
  if x.state = 1 then s.setQueue q { x with state := 2, err := e, picked := false } else s

/-- HEAD passes the running commands that are over, oldest first (R386). -/
def Queue.settle (x : Queue) : Nat → Queue
  | 0 => x
  | n + 1 =>
    match x.running with
    | .over :: rest => Queue.settle { x with head := x.head + 1, running := rest } n
    | _ => x

/-- The running commands that satisfy p are over. -/
def State.commandDone (s : State) (q : Nat) (p : Running → Bool) : State :=
  let x := s.queue q
  let rs := x.running.map (fun r => if p r then .over else r)
  s.setQueue q (Queue.settle { x with running := rs } (rs.length + 1))

/-! ### Grids retire (R154, R156, R345, R389) -/

/-- The command runs a grid. -/
def Running.isGrid (gid : Nat) : Running → Bool
  | .launch g _ => g == gid
  | .op _ _ | .depwait _ _ | .bind _ _ _ | .over => false

/-- The neighbourhoods of a grid. -/
def State.nbsOf (s : State) (gid : Nat) : List (Nat × Nb) := s.nbs.filter (fun n => n.2.grid == gid)

/-- Every neighbourhood is placed, or never will be, and done; every child has retired (R154, R345). -/
def State.gridOver (s : State) (gid : Nat) (g : Grid) : Bool :=
  (g.life == .stopping || decide (g.packet.nbs ≤ g.nextNb))
    && (s.nbsOf gid).all (fun n => n.2.teams.all (fun t => (TabOps.find? s.teams t).all (fun t => t.life == .retired)))
    && s.grids.all (fun c => c.2.parent != some gid || c.2.life == .retired)

/-- The completion record (R389). -/
def Grid.completion (g : Grid) : List Byte :=
  leBytes (g.state * 2 ^ 56) 8 ++ leBytes g.cause.toNat 8 ++ leBytes g.tpc.toNat 8 ++ leBytes g.tinfo.toNat 8

/-- Every byte that the grid's waves left dirty in an L1 written home: the release of its retirement. -/
def State.releaseGrid (s : State) (gid : Nat) (g : Grid) : State :=
  (s.nbsOf gid).foldl (fun s n => (g.packet.coresAt n.2.die n.2.origin).foldl (fun s key => s.writeBack key 7) s) s

/-- The completion record written, unless CPL is 0; none when its page is not mapped for a store (R389, log 19). -/
def State.writeCompletion (s : State) (g : Grid) : Option State :=
  if g.packet.cpl = 0 then some s
  else match s.translate (ioDie g.vd) g.vd g.packet.cpl .store with
    | .ok (_, pa) => some ((s.keep (ioDie g.vd) g.vd g.packet.cpl).homeStore g.shadow (Spot.of 0) pa g.completion)
    | .error _ => none

/-- The token of NOTIFY, which releases the writes of a grid's waves at die scope (R156). -/
def State.notifyParent (s : State) (gid : Nat) (g : Grid) : State :=
  match g.parentW with
  | some w =>
    if (s.waveAt w).isSome then
      (s.note (.retired gid w g.packet.slot.toNat)).modWave w (fun w => w.token g.packet.slot.toNat 4)
    else s
  | none => s

/-- What a queue's grid leaves at its queue: HEAD, and an error for a stop (R345), a context fault (R357) or a record
that was not written (R389). -/
def State.gridCommand (s : State) (gid : Nat) (g : Grid) (written : Bool) : State :=
  match g.queue with
  | none => s
  | some q =>
    let s := s.commandDone q (Running.isGrid gid)
    let s := if g.state = 2 then s.queueError q 5 else if g.state = 3 then s.queueError q 6 else s
    if written then s else s.queueError q 8

/-- The fault of a completion record is with the kernel, or is to be offered to it (R293, R389). -/
def State.recordFault (s : State) (g : Grid) : Bool := g.asked ≠ 2 && (s.writeCompletion g).isNone

/-- GRID_RETIRE (R154): the record before the token and the queue's HEAD; the fault of its write is offered to the
resident kernel first (R389). -/
def execGridRetire (gid : Nat) (s : State) : Out State :=
  match TabOps.find? s.grids gid with
  | none => .next s
  | some g =>
    if g.life == .retired || g.life == .waiting || !s.gridOver gid g then .next s
    else if s.recordFault g then
      .next (if g.asked = 1 then s else (s.keep (ioDie g.vd) g.vd g.packet.cpl).setGrid gid { g with asked := 1 })
    else
      let s := s.releaseGrid gid g
      let r := s.writeCompletion g
      let s := ((r.getD s).notifyParent gid g).setGrid gid { g with life := .retired, image := [], dict := [] }
      let s : State := { s with
        teams := s.teams.filter (fun t => t.2.grid != gid)
        nbs := s.nbs.filter (fun n => n.2.grid != gid) }
      .next (s.ringDue.gridCommand gid g r.isSome)

end Sys2Proof.Machine
end

