-- ==== Sys2Proof/Machine/Stream.lean ====
section
/-! DEFINITION. The copy streamer (R284 to R293): the four copy commands, what an operation reads, checks and commits,
and its status word; BCLOSE and BWAIT (R294). -/

namespace Sys2Proof.Machine

/-! ### Issue (R285 to R287) -/

/-- The words of a descriptor, loaded at wave scope, with the smallest grade of its pages and the parts that the command
loads once its own translations are kept too; XLATE, PERM and INTEG are exact (R287). -/
def Ctx.descriptor (c : Ctx) (s : State) (a : Word) (n : Nat) (k : List Word → Grade → List Part → State → State) :
    State :=
  let r := c.route s
  let x := s.locate r.at' r.vd .load 0 a n
  if x.causes ≠ 0 then c.raiseMem s x.causes (x.info.getD 0)
  else match c.holdPort s false x.parts with
    | some p => c.hold s p
    | none =>
      let bad := s.badLines r false x.parts
      if !bad.isEmpty then c.badScalar s bad x.parts
      else k (wordsOf (laneBytes s r false bad x) (n / 8)) (pageGrade x.parts) x.parts (s.keepParts r x.parts)

/-- The four copy commands. -/
inductive CopyOp where
  | copy | gather | reduce | fill
  deriving DecidableEq, Repr

/-- The number that a copy command carries in the state and in a queue entry (R386). -/
def CopyOp.num : CopyOp → Nat
  | .copy => 0
  | .gather => 1
  | .reduce => 2
  | .fill => 3

/-- The command of a descriptor, or none where R286 refuses it. -/
def copyCmd (o : CopyOp) (ws : List Word) (descG : Grade) : Option CopyCmd :=
  let w := fun i => ws.getD i 0
  let rec' := bits (w 2) 63 56
  let rop := bits (w 2) 55 52
  let ds := bits (w 2) 51 50
  let ss := bits (w 2) 49 48
  let len := bits (w 2) 23 0
  let dst := if ds = 0 then w 0 else BitVec.ofNat 64 (bits (w 0) 31 0)
  let src := if ss = 0 then w 1 else BitVec.ofNat 64 (bits (w 1) 31 0)
  let moves := o == .copy || o == .reduce
  if dst.toNat % 4 == 0 && (o == .fill || src.toNat % 4 == 0)
      && (o == .gather || rec' == 0) && (if o = .reduce then decide (rop ≤ 7) && ds == 0 else rop == 0)
      && ds != 3 && (if moves then ss != 3 else ss == 0) && bits (w 2) 47 24 == 0
      && decide (4 ≤ len ∧ len ≤ 4194304) && len % 4 == 0 && w 3 == 0
      && !(ds == 0 && decide (2 ^ 64 < dst.toNat + len))
      && !(moves && ss == 0 && decide (2 ^ 64 < src.toNat + len)) then
    some { op := o.num, dst := dst, src := src, rop := rop, dspace := ds, sspace := ss, len := len, record := [],
           descG := descG, snap := [], spSnap := [] }
  else none

/-- The first offset outside the scratchpads that a range reaches (R193, R343). -/
def Ctx.rangeFault (c : Ctx) (s : State) (space : Nat) (x : Word) (n : Nat) : Option Word :=
  if space = 0 then none
  else match s.spBytes c.w.team c.t c.g (space == 2) x n with
    | .ok _ => none
    | .error e => some e

/-- The operations of a core's command queue: issued copies that have not completed (R284). -/
def State.copyQueue (s : State) (key : Nat) : Nat :=
  (s.ops.filter (fun o => coreKey o.2.die o.2.core == key && o.2.wave != 0
    && match o.2.body with
       | .copy _ => true
       | _ => false)).length

/-- An operation of the executing wave. Its PATH counts from the wave's die of issue (log 82). -/
def Ctx.newOp (c : Ctx) (body : OpBody) (sd : SReg) (cls : BitVec 2) : Op :=
  { body := body, wave := c.wid, grid := c.w.grid, team := c.w.team, die := c.w.die, core := c.w.core, vd := c.g.vd,
    sd := if sd = 0 then none else some sd.toNat, cls := cls, eg := c.w.eg, life := .queued, queue := none, fault := 0,
    shadow := c.g.shadow, issueDie := c.w.issueDie, lanes := c.f.lanes }

/-- The last part of issue: a stall while the queue is full, the release of `.rel` (R242), the operation, the next
instruction. -/
def Ctx.queueCopy (c : Ctx) (s : State) (cmd : CopyCmd) (d : SReg) (rel : Bool) : State :=
  if 1024 ≤ s.copyQueue c.w.key then c.stall s (.queueFull .copy)
  else
    let s := if rel then s.release (c.route s) 6 (.issue s.opNext) else s
    (c.next s c.w).opStart (c.newOp (.copy cmd) d 0)

/-- The access of element i of a gather, at logical offset SRC + 4i; past the last offset it lies beyond the extent
(R207, R288). -/
def CopyCmd.gather (c : CopyCmd) (s : State) (r : Route) (i : Nat) : LaneAcc :=
  if 2 ^ 64 ≤ c.src.toNat + 4 * i then
    let a := LaneAcc.start i 0
    if BufRec.oobz c.record then { a with drop := true } else { a with causes := Cause.recrange }
  else s.recAccess r c.record .load i (c.src + BitVec.ofNat 64 (4 * i)) 4

/-- The causes that a gather's record raises at issue: RECRANGE of its range, and RECBAD of a bank-striped record where an
element lies outside the BA regions (R287, R322; log 69). -/
def CopyCmd.gatherCauses (c : CopyCmd) (s : State) (r : Route) : Word :=
  (if BufRec.extent c.record < c.src.toNat + c.len ∧ !BufRec.oobz c.record then Cause.recrange else 0)
    ||| (if BufRec.ilv c.record == 1 && (List.range (c.len / 4)).any (fun i => (c.gather s r i).parts.any (fun p => !p.leaf.ba))
         then Cause.recbad else 0)

/-- XGATH reads its record as a VLD would, and checks the range (R287). -/
def Ctx.gatherCheck (c : Ctx) (s : State) (n : Nat) (cmd : CopyCmd) (k : CopyCmd → State → State) : State :=
  let r := c.route s
  match c.holdRecord s n, s.record r c.g n with
  | some p, _ => c.hold s p
  | none, .error e => c.recFail s n 0 0 e
  | none, .ok ws =>
    let cmd := { cmd with record := ws }
    if cmd.gatherCauses s r ≠ 0 then c.raise s (cmd.gatherCauses s r) 0
    else k cmd (s.recKeep r c.g n ws)

/-- A copy command (R287). -/
def copyInstr (s : State) (o : CopyOp) (d a : SReg) (rel : Bool) : Out State :=
  commandOp s d a fun c s =>
    let va := c.w.s a
    if c.w.idx ≠ c.g.packet.producer then c.raise s Cause.notproducer 0
    else if va.extractLsb' 0 5 ≠ 0 then c.raise s Cause.align va
    else c.descriptor s va 32 fun ws g ps s =>
      let s := s.loadParts (c.route s) 0 0 ps
      match copyCmd o ws g with
      | none => c.raise s Cause.copybad 0
      | some cmd =>
        match (c.rangeFault s cmd.dspace cmd.dst cmd.len).orElse
            (fun _ => if o = .gather ∨ o = .fill then none else c.rangeFault s cmd.sspace cmd.src cmd.len) with
        | some x => c.raise s Cause.sprange x
        | none =>
          if o = .gather then
            c.gatherCheck s (bits (ws.getD 2 0) 63 56) cmd fun cmd s => c.queueCopy s cmd d rel
          else c.queueCopy s cmd d rel

/-- XCOPY (R287). -/
def execXcopy (d a : SReg) (r : Bool) (s : State) : Out State := copyInstr s .copy d a r
/-- XGATH (R287). -/
def execXgath (d a : SReg) (r : Bool) (s : State) : Out State := copyInstr s .gather d a r
/-- XRED (R287). -/
def execXred (d a : SReg) (r : Bool) (s : State) : Out State := copyInstr s .reduce d a r
/-- XFILL (R287). -/
def execXfill (d a : SReg) (r : Bool) (s : State) : Out State := copyInstr s .fill d a r

/-! ### Contexts (R284) -/

/-- An operation replaced. -/
def State.setOp (s : State) (id : Nat) (o : Op) : State := { s with ops := TabOps.put s.ops id o }

/-- The class of an operation's engine on its die: the copy engine or the collective engine. -/
def OpBody.engine : OpBody → Option Bool
  | .copy _ => some false
  | .coll _ => some true
  | .bank _ | .mma _ | .mzero _ => none

/-- The beats of 64 bytes that an engine moves for an operation (R284). -/
def OpBody.beats : OpBody → Nat
  | .copy c => (c.len + 63) / 64
  | .coll c => if c.op = 3 ∧ c.root ≠ c.rank then 0 else ((if c.op = 2 then c.ranks.length else 1) * c.len + 63) / 64
  | .bank _ | .mma _ | .mzero _ => 0

/-- The engine has moved every beat of an operation. -/
def Op.allMoved (o : Op) : Bool := decide (o.body.beats ≤ o.moved)

/-- The operation as a context starts it: a copy or a part takes its snapshots (log 20). -/
def State.begun (s : State) (o : Op) (context : Nat) : Op :=
  { o with
    life := .running
    context := context
    body := match o.body with
      | .copy c => .copy { c with
          snap := s.homeImage o.shadow
          spSnap := (s.teams.filter (fun t => t.2.die == o.die)).map (fun t => (t.1, t.2.sp)) }
      | .coll c => .coll { c with
          snap := s.homeImage o.shadow
          since := s.dieCycle o.die }
      | b => b }

/-- The numbers of an operation in the log: its grid's in the entry, its team's, its wave's, its engine's, and the lanes of
the fragment that issued it. -/
def State.opNumbers (s : State) (o : Op) (i : Nat) : List Nat :=
  match TabOps.find? s.waves o.wave, TabOps.find? s.teams o.team with
  | some w, some t => [i, t.index, w.idx, if o.body.engine = some true then 1 else 0] ++ laneWords o.lanes
  | _, _ => [i]

/-- The choice by which an operation fails, if it does, is drawn as it starts and joins the log; a replay draws what stands
there, since its status words are those of the logged run (R291, R404; log 62). -/
def State.drawn (s : State) (id : Nat) (o : Op) : State × Nat :=
  match o.shadow with
  | some r =>
    let i := (((TabOps.find? s.grids o.grid).bind Grid.replay).map Prod.snd).getD 0
    let k := s.opNumbers o i
    (match TabOps.find? s.retrace.pools r with
     | some e =>
       ({ s with retrace := { s.retrace with
            pools := TabOps.put s.retrace.pools r { e with draws := e.draws.eraseP (fun x => x.1 == k) } } },
         ((e.draws.find? (fun x => x.1 == k)).map Prod.snd).getD 0)
     | none => (s, 0))
  | none =>
    let s1 := s.logGrid o.grid (fun i e => { e with draws := e.draws ++ [(s.opNumbers o i, s.free)] })
    let s2 : State := { s1 with
      free := s.free + 1
      retrace := { s1.retrace with log := s1.retrace.log.map (fun e =>
        if e.op = some id then { e with draws := [(s.opNumbers o 0, s.free)] } else e) } }
    (s2, s.free)

/-- A free context of an engine takes the oldest queued command of its die; while the die is not in service only those of
its own waves, which complete all the same (R284, R345, R397, R400, R405; log 66). -/
def State.startEngine (s : State) (die : Nat) (coll : Bool) : State :=
  let mine := s.ops.filter (fun o => o.2.die == die && o.2.body.engine == some coll)
  let taken := (mine.filter (fun o => o.2.life == .running)).map (fun o => o.2.context)
  let serves := decide (24 ≤ die) || (s.die die).up
  match (List.range 16).find? (fun k => !taken.contains k),
      mine.find? (fun o => o.2.life == .queued && (serves || o.2.wave != 0)) with
  | some k, some o =>
    let x := s.drawn o.1 o.2
    x.1.setOp o.1 { x.1.begun o.2 k with draw := x.2 }
  | _, _ => s

/-- The beats that a context of an engine moves in a round: its device's weight, or one in deterministic mode (R284,
R404). -/
def State.beatWeight (s : State) (o : Op) : Nat := if s.replaying then 1 else max 1 (s.vd o.vd).weight

/-- An engine of a die moves one beat: of the context whose turn it is, up to its weight, else of the next one in the order
of the contexts (R284, R404). -/
def State.engineBeat (s : State) (die : Nat) (coll : Bool) : State :=
  let key := 2 * die + coll.toNat
  let turn := TabOps.get (0, 0) s.engines key
  let mine := s.ops.filter (fun o => o.2.die == die && o.2.body.engine == some coll && o.2.life == .running && !o.2.allMoved)
  let after := fun (o : Nat × Op) => (o.2.context + 15 - turn.1) % 16
  let next := mine.foldl (fun best o =>
    match best with
    | none => some o
    | some b => if after o < after b then some o else some b) (none : Option (Nat × Op))
  let go := fun (o : Nat × Op) (n : Nat) => ({ s.setOp o.1 { o.2 with moved := o.2.moved + 1 } with
    engines := TabOps.put s.engines key (o.2.context, n) } : State)
  match mine.find? (fun o => o.2.context == turn.1 && decide (turn.2 < s.beatWeight o.2)), next with
  | some o, _ => go o (turn.2 + 1)
  | none, some o => go o 1
  | none, none => s

/-- ENGINE_CONTEXT_START (R284). -/
def execEngineContextStart (die : Nat) (s : State) : Out State :=
  .next ((s.startEngine die false).startEngine die true)

/-! ### The accesses of an engine -/

/-- The path of an engine's accesses: past every L1, for a number that is no core's. -/
def engineRoute (die vd : Nat) : Route :=
  { die := die, core := 100000, vd := vd, team := 0, wave := 0, at' := die, fused := [], prot := false }

/-- The path of an operation. -/
def Op.route (o : Op) : Route := { engineRoute o.die o.vd with shadow := o.shadow }

/-- What a copy reads for element i from flat memory or through its record (R288). -/
def CopyCmd.source (c : CopyCmd) (s : State) (r : Route) (i : Nat) : LaneAcc :=
  let x := c.src + BitVec.ofNat 64 (4 * i)
  if c.op = 1 then c.gather s r i
  else if c.op = 3 ∨ c.sspace ≠ 0 then LaneAcc.start i x
  else s.locate r.at' r.vd .load i x 4

/-- Where a copy writes element i in flat memory. -/
def CopyCmd.dest (c : CopyCmd) (s : State) (r : Route) (i : Nat) : LaneAcc :=
  let x := c.dst + BitVec.ofNat 64 (4 * i)
  if c.dspace ≠ 0 then LaneAcc.start i x
  else s.locate r.at' r.vd (if c.op = 2 then .atomic else .store) i x 4

/-- The scratchpad places of a range; none where its team is gone (log 21). -/
def State.spRange (s : State) (o : Op) (space : Nat) (x : Word) : List (Nat × Nat) :=
  if space = 0 then []
  else match TabOps.find? s.teams o.team, TabOps.find? s.grids o.grid with
    | some t, some g =>
      (match s.spBytes o.team t g (space == 2) x 4 with
       | .ok ps => ps
       | .error _ => [])
    | _, _ => []

/-- The CODE of the causes of an access, 0 for none (R291). -/
def codeOf (c : Word) : Nat :=
  if bit c 3 then 1 else if bit c 4 then 2 else if bit c 10 then 4 else if bit c 11 then 5
  else if bit c 8 then 7 else 0

/-- The CODE with which an element fails: its translations, then its data (R290, R291). -/
def elementCode (s : State) (r : Route) (src dst : LaneAcc) (poisoned : Bool) : Nat :=
  let a := codeOf src.causes
  let b := codeOf dst.causes
  if a ≠ 0 then a else if !(s.badLines r false src.parts).isEmpty || poisoned then 4 else b

/-- An element of a copy: what it reads and writes, and the CODE with which it fails. -/
structure Elem where
  src   : LaneAcc
  dst   : LaneAcc
  srcSp : List (Nat × Nat)
  dstSp : List (Nat × Nat)
  code  : Nat
  deriving DecidableEq, Repr

/-- Element i of a copy. -/
def CopyCmd.elem (c : CopyCmd) (s : State) (o : Op) (i : Nat) : Elem :=
  let r := o.route
  let src := c.source s r i
  let dst := c.dest s r i
  let x := if c.op = 0 ∨ c.op = 2 then s.spRange o c.sspace (c.src + BitVec.ofNat 64 (4 * i)) else []
  { src := src, dst := dst, srcSp := x, dstSp := s.spRange o c.dspace (c.dst + BitVec.ofNat 64 (4 * i)),
    code := elementCode s r src dst (x.any s.spPoison) }

/-- All elements. -/
def CopyCmd.elems (c : CopyCmd) (s : State) (o : Op) : List Elem := (List.range (c.len / 4)).map (c.elem s o)

/-- The flat parts that an element touches. -/
def Elem.flat (e : Elem) : List Part := e.src.parts ++ e.src.aux ++ e.dst.parts

/-- PATH of an address for an operation of a die (R291). -/
def State.pathOf (s : State) (die pa : Nat) : Nat :=
  if hbmTop ≤ pa then 2 else if s.homeDie pa = die then 0 else 1

/-- The widest path of a list of parts. -/
def State.pathMax (s : State) (die : Nat) (ps : List Part) : Nat := ps.foldl (fun m p => max m (s.pathOf die p.pa)) 0

/-- The grade of origin t (R290): of the pages read, among them, for a reducing copy, those of the elements that it reduces
into (R265, R288). -/
def CopyCmd.grade (c : CopyCmd) (s : State) (o : Op) (es : List Elem) : Grade :=
  if c.op = 3 then c.descG
  else es.foldl (fun t e =>
    let t := e.srcSp.foldl (fun t p => Grade.min t (s.spTag p)) t
    let t := if c.op = 2 ∧ c.dspace = 0 then Grade.min t (pageGrade e.dst.parts) else t
    if e.src.drop then Grade.min t o.eg else Grade.min t (pageGrade e.src.parts)) 3

/-- The status word of an operation (R291). -/
def statusWord (code path : Nat) (t : Grade) (count : Nat) : Word :=
  BitVec.ofNat 64 (code * 2 ^ 28 + path * 2 ^ 26 + t.toNat * 2 ^ 24 + count % 2 ^ 24)

/-! ### Completion (R289 to R292) -/

/-- An earlier operation of the wave names the same completion register: this one completes after it (R292). -/
def State.registerTurn (s : State) (id : Nat) (o : Op) : Bool :=
  o.sd.isNone || s.ops.all (fun p => decide (id ≤ p.1) || p.2.wave != o.wave || p.2.sd != o.sd)

/-- The end of a replayed operation: its status word is written, apart from memory (R241, R404). -/
def State.replayStatus (s : State) (id vd : Nat) (va status : Word) : State :=
  let s : State := { s with
    ops := TabOps.drop s.ops id
    retrace := { s.retrace with status := TabOps.drop s.retrace.status id } }
  match s.translate (ioDie vd) vd va .store with
  | .ok (_, pa) => (s.keep (ioDie vd) vd va).homeStore (some id) (Spot.of 0) pa (leBytes status.toNat 8)
  | .error _ => s.keep (ioDie vd) vd va

/-- The end of an operation with its status: for its wave, or for the queue that sent it, whose status word is
written and whose command is done (R386). -/
def State.finishOp (s : State) (id : Nat) (o : Op) (status : Word) : State :=
  match o.queue with
  | none =>
    match TabOps.find? s.retrace.status id with
    | some (vd, va) => s.replayStatus id vd va status
    | none => s.opDone id o status
  | some q =>
    let s : State := { s with ops := TabOps.drop s.ops id }
    let va := (s.queue q).running.findSome? (fun r =>
      match r with
      | .op i a => if i = id then some a else none
      | .launch _ _ | .depwait _ _ | .bind _ _ _ | .over => none)
    let x := match va with
      | some a => (match s.translate (ioDie o.vd) o.vd a .store with
          | .ok (_, pa) => ((s.keep (ioDie o.vd) o.vd a).homeWriteWord pa status, true)
          | .error _ => (s.keep (ioDie o.vd) o.vd a, false))
      | none => (s, true)
    let s := x.1.commandDone q (fun r =>
      match r with
      | .op i _ => i == id
      | .launch _ _ | .depwait _ _ | .bind _ _ _ | .over => false)
    if x.2 then s else s.queueError q 8

/-- The bytes of one element as an operation reads them: as they stood when it started or as they stand now, free
for each element (R239, R289, log 20). -/
def CopyCmd.elemBytes (c : CopyCmd) (s : State) (o : Op) (i : Nat) (e : Elem) : List Byte :=
  if c.op = 3 then ((leBytes c.src.toNat 8).drop (4 * i % 8)).take 4
  else if e.src.drop then [0, 0, 0, 0]
  else
    let now := if c.op = 0 ∧ c.sspace ≠ 0 ∨ c.op = 2 ∧ c.sspace ≠ 0 then e.srcSp.map s.spRead
      else e.src.parts.flatMap (s.partBytes o.route false [])
    let old := if c.sspace ≠ 0 then e.srcSp.map (fun p => MemOps.read (TabOps.get [] c.spSnap p.1) p.2)
      else e.src.parts.flatMap (fun p => MemOps.readBytes c.snap p.pa p.n)
    if now = old then now
    else if Config.freeChoice (Nat.pair s.free i) % 2 = 0 then now else old

/-- What a reducing copy leaves in an element (R288): round to nearest even, no flag. -/
def reduceValue (rop old x : Nat) : Nat :=
  match rop with
  | 0 => (redNode 0 0 .rne old x).1
  | 1 => (redNode 0 6 .rne old x).1
  | 2 => (redNode 1 0 .rne old x).1
  | 3 => (redNode 2 0 .rne old x).1
  | 4 => (redNode 1 6 .rne old x).1
  | 5 => (redNode 2 6 .rne old x).1
  | 6 => (redNode 1 7 .rne old x).1
  | _ => (redNode 2 7 .rne old x).1

/-- Bytes written by an agent at their homes line by line, or by a replay (R241, R259). -/
def State.homeWriteAll (s : State) (x : Option Nat) (who : Spot) (ws : List (Nat × List Byte)) : State :=
  (lineMerges (linePieces ws)).foldl (fun s l => s.homePut x who l.1 l.2.1 l.2.2) s

/-- The DETECT or TRANSIT records of the bad lines that an operation's read found (R261, R269, log 67). -/
def State.opBad (s : State) (o : Op) (bad : Bad) : State :=
  bad.foldl (fun s b => s.errorRecord o.vd
    { owner := b.2.2.owner, kind := if b.2.1 = .transit then 2 else 1, grade := b.2.2.grade.toNat, eg := o.eg.toNat,
      die := o.die, handle := (((TabOps.find? s.waves o.wave).map (fun w => w.handle.toNat)).getD 0),
      line := b.1 * 128, pc := 0, cycle := s.dieCycle o.die }) s

/-- One element of a reducing copy, an atomic at its home: of an uncorrectable line it is performed nowhere (R237, R245,
R259, R288). -/
def CopyCmd.reduce (c : CopyCmd) (s : State) (id : Nat) (o : Op) (dst : LaneAcc) (x : Nat) : State :=
  let bad := s.badLines o.route false dst.parts
  let s1 := (s.homeReads o.vd dst.parts).opBad o bad
  if !bad.isEmpty then s1
  else s1.homeWriteAll o.shadow (Spot.of id) (spreadBytes dst.parts
    (leBytes (reduceValue c.rop (leValue (dst.parts.flatMap (fun p => s.homeSeen o.shadow p.pa p.n))) x) 4))

/-- The staged writes committed: flat elements at their homes, scratchpad elements with tag t (R289, R290). -/
def CopyCmd.commit (c : CopyCmd) (s : State) (id : Nat) (o : Op) (es : List Elem) (t : Grade) : State :=
  let vals := es.zipIdx.map (fun x => (x.1, c.elemBytes s o x.2 x.1))
  let s0 : State := { s with free := s.free + 1 }
  if c.dspace ≠ 0 then vals.foldl (fun s x => s.spStore x.1.dstSp x.2 t) s0
  else
    if c.op = 2 then vals.foldl (fun s x => c.reduce s id o x.1.dst (leValue x.2)) s0
    else s0.homeWriteAll o.shadow (Spot.of id) (vals.flatMap (fun x => spreadBytes x.1.dst.parts x.2))

/-- The ENGINE record of an operation that ends on uncorrectable data: a line, or poison of a scratchpad (R269, R272,
R290). -/
def State.engineNote (s : State) (o : Op) (bad : Bad) : State :=
  let w := TabOps.find? s.waves o.wave
  let h := (w.map (fun w => w.handle.toNat)).getD 0
  let base : ErrRec := { owner := 0, kind := 6, grade := 0, eg := o.eg.toNat, die := o.die, handle := h, line := 0,
                         pc := 0, cycle := s.dieCycle o.die }
  match bad with
  | b :: _ => s.errorRecord o.vd { base with owner := b.2.2.owner, grade := b.2.2.grade.toNat, line := b.1 * 128 }
  | [] => s.errorRecord o.vd { base with owner := (((TabOps.find? s.grids o.grid).map Grid.owner).getD 0).toNat
                                         grade := o.eg.toNat }

/-- The records of an uncorrectable source: those of the reads that found its lines, and ENGINE (R269, R272, R290). -/
def State.engineRecord (s : State) (o : Op) (ps : List Part) : State :=
  let bad := s.badLines o.route false ps
  ((s.homeReads o.vd ps).opBad o bad).engineNote o bad

/-- An operation that ends with a nonzero CODE writes nothing; COUNT is for diagnosis, free below LEN (R289, R291,
log 5). -/
def CopyCmd.fail (c : CopyCmd) (s : State) (id : Nat) (o : Op) (es : List Elem) (code : Nat) : State :=
  let count := Config.freeChoice (Nat.pair o.draw 1) % (c.len / 4) * 4
  s.finishOp id o (statusWord code (s.pathMax o.issueDie (es.flatMap Elem.flat)) (c.grade s o es) count)

/-- The wave's DIL and DILCNT advance once when a diluting operation completes (R265). -/
def State.diluteWave (s : State) (wid : Nat) : State :=
  s.modWave wid (fun w => if w.life = .ended then w else w.dilute)

/-- The end of a copy all of whose elements can be read and written: GRADE, or the commit (R290). -/
def CopyCmd.done (c : CopyCmd) (s : State) (id : Nat) (o : Op) (es : List Elem) : State :=
  let t := c.grade s o es
  let check := gradeCheck t (es.flatMap (fun e => e.dst.parts))
  if check = .strict then c.fail s id o es 3
  else
    let status := statusWord 0 (s.pathMax o.issueDie (es.flatMap Elem.flat)) t c.len
    let s := (c.commit s id o es t).homeReads o.vd (es.flatMap (fun e => e.src.parts ++ e.src.aux))
    let s := es.foldl (fun s e => s.keepParts o.route e.flat) s
    (if check = .dilute then s.diluteWave o.wave else s).finishOp id o status

/-- COPY_OPERATION_COMPLETE (R289), once every beat has moved: an element that fails ends the operation, which one is free; a
fault of a translation is offered to the kernel first (R293). -/
def execCopyOperationComplete (id : Nat) (s : State) : Out State :=
  match TabOps.find? s.ops id with
  | none => .next s
  | some o =>
    match o.body with
    | .copy c =>
      if o.life != .running || (o.fault != 0 && o.fault < 16) || !s.registerTurn id o || !o.allMoved then .next s
      else if 16 ≤ o.fault then .next (c.fail s id o (c.elems s o) (o.fault - 16))
      else
        let es := c.elems s o
        let bad := es.filter (fun e => e.code != 0)
        match bad[Config.freeChoice (Nat.pair o.draw 0) % bad.length]? with
        | none => .next (c.done s id o es)
        | some e =>
          if e.code ≤ 2 then .next ((s.walkTraces o.route [e.src, e.dst]).setOp id { o with fault := e.code })
          else if e.code = 4 then .next (c.fail (s.engineRecord o (e.src.parts ++ e.src.aux)) id o es 4)
          else .next (c.fail s id o es e.code)
    | _ => .next s

/-! ### Batches (R294) -/

/-- BCLOSE: the open batch becomes batch CL (R294). -/
def execBclose (d : SReg) (k : BitVec 2) (s : State) : Out State :=
  scalarOp s [d.toNat] [] [] fun c s =>
    let b := c.w.batch k.toNat
    if 32768 ≤ (b.cl + 1 - b.dn).toNat then c.stall s (.closeFull k)
    else
      let w := c.w.setE d ((b.cl + 1).zeroExtend 64)
      let s := c.next s (w.setBatch k.toNat
        { b with cl := b.cl + 1, opened := [], closed := b.closed ++ [((b.cl + 1).toNat, b.opened)] })
      if k = 0 then s.settleCommits c.wid
      else if k = 1 then s.modWave c.wid (fun w => { w with
        tileBad := if w.tileOpen then w.tileBad ++ [b.cl + 1] else w.tileBad
        tileOpen := false })
      else s

/-- A batch number that is not closed yet (R294). -/
def Batch.unclosed (b : Batch) (n : BitVec 16) : Bool :=
  decide (1 ≤ (n - b.cl).toNat ∧ (n - b.cl).toNat ≤ 32767)

/-- BWAIT with its batch number: it waits, or acquires and goes on; a poisoned retirement that it observes raises INTEG
(R243, R248, R294, R311). -/
def Ctx.bwait (c : Ctx) (s : State) (k : BitVec 2) (n : BitVec 16) : State :=
  let b := c.w.batch k.toNat
  if b.unclosed n then c.raise s Cause.batchbad 0
  else if !serialLe n b.dn then c.wait s c.w (.bwait k n)
  else
    let s := if k = 2 then s else s.acquire (c.route s) 6 [.batch c.wid k.toNat n]
    if k = 1 && c.w.tileSeen n then c.seeTile s n else c.next s c.w

/-- BWAIT (R294): the batch number is read once, so that one that has parked does not look at the register again. -/
def execBwait (a : SReg) (k : BitVec 2) (s : State) : Out State :=
  withEnd s fun c =>
    match c.f.park with
    | .bwait _ n => c.bwait s k n
    | _ => c.scalar s [] [a.toNat] [] fun c s => c.bwait s k ((c.w.s a).extractLsb' 0 16)

end Sys2Proof.Machine
end

