-- ==== Sys2Proof/Machine/Bank.lean ====
section
/-! DEFINITION. Bank arithmetic in the HBM4E stacks (R320 to R336): issue, the base die's intake, the parts of the bank
units, completion, and BFENCE. -/

namespace Sys2Proof.Machine

/-! ### Geometry (R320, R321) -/

/-- The region of a BA address within its stack. -/
def baRegion (pa : Nat) : Nat := pa % 2 ^ 36 / 2 ^ 21

/-- The bank that holds a BA address. -/
def baBank (pa : Nat) : Nat := pa % 2 ^ 21 / 1024 % 1024

/-- The subarray of a bank that holds a BA address. -/
def baSubarray (pa : Nat) : Nat := baRegion pa / 256

/-! ### Descriptors (R325) -/

/-- The five bank commands. -/
inductive BankOp where
  | zero | copy | axpy | dot | scal
  deriving DecidableEq, Repr

/-- The op number (R324). -/
def BankOp.num : BankOp → Nat
  | .zero => 0
  | .copy => 1
  | .axpy => 2
  | .dot => 3
  | .scal => 4

/-- Two ranges overlap. -/
def overlaps (a n b m : Nat) : Bool := decide (a < b + m ∧ b < a + n)

/-- A descriptor is legal (R325). -/
def bankOk (o : BankOp) (ws : List Word) : Bool :=
  let w := fun i => ws.getD i 0
  let fmt := bits (w 2) 31 28
  let rows := bits (w 2) 11 0
  let n := rows * 1024
  let dst := (w 0).toNat
  let src := (w 1).toNat
  let src2 := (w 3).toNat
  let reads := o == .copy || o == .axpy || o == .dot
  bits (w 2) 27 12 == 0 && decide (1 ≤ rows ∧ rows ≤ 2048)
    && (if o = .zero ∨ o = .copy then fmt == 0 else decide (fmt ≤ 1))
    && (o == .axpy || o == .scal || bits (w 2) 63 32 == 0)
    && (reads || src == 0) && (o == .dot || src2 == 0)
    && dst % 1024 == 0 && src % 1024 == 0 && src2 % 1024 == 0
    && (!(o == .copy || o == .axpy) || src == dst || !overlaps src n dst n)
    && (o != .dot || !(overlaps dst 1024 src n || overlaps dst 1024 src2 n))

/-- The operands of a command, those that it reads before the one that it only writes, with the right that each needs
(R325, R326). -/
def bankOperands (o : BankOp) (ws : List Word) : List (Word × Access) :=
  let w := fun i => ws.getD i 0
  match o with
  | .zero => [(w 0, .store)]
  | .copy => [(w 1, .load), (w 0, .store)]
  | .axpy => [(w 1, .load), (w 0, .atomic)]
  | .dot => [(w 1, .load), (w 3, .load), (w 0, .store)]
  | .scal => [(w 0, .atomic)]

/-- The translation of the first byte of each operand: the arguments with LAX, or the cause (R326). -/
def bankTranslate (s : State) (r : Route) : List (Word × Access) → Except (Word × Word) (List (BankArg × Bool))
  | [] => .ok []
  | (va, acc) :: rest =>
    match s.translate r.at' r.vd va acc with
    | .error e => .error (Cause.ofMem e, va)
    | .ok (l, pa) =>
      if !l.ba || decide (hbmTop ≤ pa) then .error (Cause.bankbad, 0)
      else match bankTranslate s r rest with
        | .error e => .error e
        | .ok as => .ok (({ pa := pa, owner := l.owner, grade := l.grade }, l.lax) :: as)

/-- The operands that a command reads, of its translated operands. -/
def bankReads (o : BankOp) (as : List BankArg) : List BankArg :=
  match o, as with
  | .copy, [x, _] => [x]
  | .axpy, [x, y] => [x, y]
  | .dot, [x, y, _] => [x, y]
  | .scal, [x] => [x]
  | _, _ => []

/-- The command of a descriptor and its translated operands; t as R327 sets it. -/
def bankCmd (o : BankOp) (ws : List Word) (descG : Grade) (as : List (BankArg × Bool)) : BankCmd :=
  let d := as.getLastD ({ pa := 0, owner := 0, grade := 0 }, false)
  let xs := bankReads o (as.map Prod.fst)
  let w2 := ws.getD 2 0
  { op := o.num, stack := d.1.pa / 2 ^ 36, dst := d.1, xs := xs, alpha := w2.extractLsb' 32 32, fmt := bits w2 31 28,
    rows := bits w2 11 0, t := if o = .zero then descG else xs.foldl (fun t x => Grade.min t x.grade) 3, lax := d.2,
    split := false, toEnter := [], toRead := [], toWrite := [], bad := none, code := 0, snap := [] }

/-- A command joins its stack's intake and its wave's open BANK batch. -/
def Ctx.sendBank (c : Ctx) (s : State) (cmd : BankCmd) (d : SReg) (rel : Bool) : State :=
  if 64 ≤ (TabOps.get [] s.intake cmd.stack).length then c.stall s (.queueFull (.bank cmd.stack))
  else
    let s := if rel then c.fenceRel s 7 (.issue s.opNext) else s
    let id := s.opNext
    let s := (c.next s c.w).opStart (c.newOp (.bank cmd) d 2)
    { s with intake := TabOps.put s.intake cmd.stack (TabOps.get [] s.intake cmd.stack ++ [id]) }

/-- The pages of 4 KiB that a range has in the page of its first byte. -/
def rangePages (va : Word) (size n : Nat) : List Word :=
  ((List.range ((va.toNat % 4096 + n + 4095) / 4096)).map (fun i => va + BitVec.ofNat 64 (4096 * i))).filter
    (fun x => x.toNat / size == va.toNat / size)

/-- What the translation of an operand of n bytes leaves: that of its first byte, and what the homes of its rows know of
their pages (R203, R205, R331). -/
def State.keepRange (s : State) (at' vd : Nat) (va : Word) (n : Nat) : State :=
  match s.leafOf at' vd va with
  | none => s.keep at' vd va
  | some l => (rangePages va l.size n).foldl (fun s x => s.noteCode vd x l) (s.keep at' vd va)

/-- The issue of a bank command (R326). -/
def bankInstr (s : State) (o : BankOp) (d a : SReg) (rel : Bool) : Out State :=
  commandOp s d a fun c s =>
    let va := c.w.s a
    if va.extractLsb' 0 5 ≠ 0 then c.raise s Cause.align va
    else c.descriptor s va 32 fun ws g ps s =>
      if !bankOk o ws then c.raise s Cause.bankbad 0
      else match bankTranslate s (c.route s) (bankOperands o ws) with
        | .error e => c.raise s e.1 e.2
        | .ok as =>
          if as.any (fun x => x.1.pa / 2 ^ 36 != ((as.map (fun x => x.1.pa)).headD 0) / 2 ^ 36) then
            c.raise s Cause.bankbad 0
          else
            let n := bits (ws.getD 2 0) 11 0 * 1024
            let s' := (bankOperands o ws).foldl (fun s x => s.keepRange (c.route s).at' (c.route s).vd x.1 n) s
            c.sendBank (s'.loadParts (c.route s) 0 0 ps) (bankCmd o ws g as) d rel

/-- NBZERO (R326). -/
def execNbzero (d a : SReg) (r : Bool) (s : State) : Out State := bankInstr s .zero d a r
/-- NBCOPY (R326). -/
def execNbcopy (d a : SReg) (r : Bool) (s : State) : Out State := bankInstr s .copy d a r
/-- NBAXPY (R326). -/
def execNbaxpy (d a : SReg) (r : Bool) (s : State) : Out State := bankInstr s .axpy d a r
/-- NBDOT (R326). -/
def execNbdot (d a : SReg) (r : Bool) (s : State) : Out State := bankInstr s .dot d a r
/-- NBSCAL (R326). -/
def execNbscal (d a : SReg) (r : Bool) (s : State) : Out State := bankInstr s .scal d a r

/-! ### The base die's intake (R327) -/

namespace BankCmd

/-- R: the operand length in bytes. -/
def len (c : BankCmd) : Nat := c.rows * 1024

/-- The bytes written at the destination. -/
def dstLen (c : BankCmd) : Nat := if c.op = 3 then 4 else c.len

/-- A range stays in the region that holds its first byte. -/
def inRegion (pa n : Nat) : Bool := decide (pa % 2 ^ 21 + n ≤ 2 ^ 21)

/-- Every operand range stays in its region. -/
def regionOk (c : BankCmd) : Bool := inRegion c.dst.pa c.dstLen && c.xs.all (fun x => inRegion x.pa c.len)

/-- The row chunks of an operand, by address. -/
def chunks (c : BankCmd) (x : BankArg) : List Nat := (List.range c.rows).map (fun i => x.pa + 1024 * i)

/-- The destination rows. -/
def dstRows (c : BankCmd) : List Nat := if c.op = 3 then [c.dst.pa] else c.chunks c.dst

/-- The banks whose rows the command reads. -/
def readBanks (c : BankCmd) : List Nat := ((c.xs.flatMap c.chunks).map baBank).eraseDups

/-- The banks whose rows the command writes. -/
def writeBanks (c : BankCmd) : List Nat := (c.dstRows.map baBank).eraseDups

/-- Every bank that the command touches. -/
def banks (c : BankCmd) : List Nat := (c.readBanks ++ c.writeBanks).eraseDups

/-- The widest path that the command uses (R330). -/
def path (c : BankCmd) : Nat :=
  let same := (List.range c.rows).all (fun i => c.xs.all (fun x =>
    baBank (x.pa + 1024 * i) == baBank (((c.xs.headD c.dst).pa) + 1024 * i)))
  match c.op with
  | 0 => 0
  | 1 =>
    let s := (c.xs.headD c.dst).pa
    if s = c.dst.pa then 1
    else if (List.range c.rows).all (fun i => baBank (s + 1024 * i) == baBank (c.dst.pa + 1024 * i)
        && baSubarray (s + 1024 * i) == baSubarray (c.dst.pa + 1024 * i)) then 0
    else 2
  | 4 => 1
  | _ => if same then 1 else 2

/-- The status word (R332): a command that a check ends used no path and read nothing; after an uncorrectable line
COUNT is the source bytes checked before it. -/
def status (c : BankCmd) : Word :=
  if c.code = 0 then statusWord 0 c.path c.t c.dstLen
  else if c.code = 4 then statusWord 4 c.path c.t c.checked
  else statusWord c.code 0 c.t 0

end BankCmd

/-- The key of a bank's queue. -/
def bankKey (stack bank : Nat) : Nat := stack * 1024 + bank

/-- A command taken out of the queue of one bank. -/
def State.leaveBank (s : State) (stack bank id : Nat) : State :=
  let q := (TabOps.get [] s.bankQ (bankKey stack bank)).filter (· != id)
  { s with bankQ := TabOps.put s.bankQ (bankKey stack bank) q }

/-- The command as the base die has checked and divided it: it ends at once with REGION or GRADE, or has its parts to
enter (R327). -/
def BankCmd.divided (c : BankCmd) : BankCmd :=
  if !c.regionOk then { c with split := true, code := 8 }
  else if c.t.toNat < c.dst.grade.toNat && !c.lax then { c with split := true, code := 3 }
  else { c with split := true, toEnter := c.banks, toRead := c.readBanks, toWrite := c.writeBanks }

/-- The queue of a bank has room for a part (R327). -/
def State.bankRoom (s : State) (stack bank : Nat) : Bool :=
  decide ((TabOps.get [] s.bankQ (bankKey stack bank)).length < 16)

/-- A part enters the queue of its bank. -/
def State.enterBank (s : State) (stack id bank : Nat) : State :=
  { s with bankQ := TabOps.put s.bankQ (bankKey stack bank) (TabOps.get [] s.bankQ (bankKey stack bank) ++ [id]) }

/-- BANK_COMMAND_INTAKE (R327): the oldest command of the intake is checked and divided; each of its parts enters the
queue of its bank, or waits there while that queue is full, and the command leaves the intake with its last part (log
68). -/
def execBankCommandIntake (stack : Nat) (s : State) : Out State :=
  match TabOps.get [] s.intake stack with
  | [] => .next s
  | id :: rest =>
    let s1 : State := { s with intake := TabOps.put s.intake stack rest }
    match TabOps.find? s.ops id with
    | none => .next s1
    | some o =>
      match o.body with
      | .bank c =>
        let c1 := if c.split then c else c.divided
        let left := c1.toEnter.filter (fun b => !s.bankRoom stack b)
        let s2 := (c1.toEnter.filter (s.bankRoom stack)).foldl (fun s b => s.enterBank stack id b)
          (if left.isEmpty then s1 else s)
        .next (s2.setOp id { o with life := .running, body := .bank { c1 with toEnter := left } })
      | _ => .next s1

/-! ### The bank units (R328 to R331, R333) -/

/-- The lines of a row. -/
def rowLines (row : Nat) : List Nat := (List.range 8).map (fun i => row / 128 + i)

/-- The rows of the operands that a bank holds, each with its operand. -/
def BankCmd.rowsIn (c : BankCmd) (bank : Nat) : List (Nat × BankArg) :=
  c.xs.flatMap (fun x => ((c.chunks x).filter (fun p => baBank p == bank)).map (fun p => (p, x)))

/-- A row written: its lines are written whole, and the base die writes their check bytes (R259, R272, R331); by a replay
it is written apart from memory (R241). -/
def State.writeRow (s : State) (x : Option Nat) (who : Spot) (row : Nat) (bs : List Byte) : State :=
  match x with
  | some n => s.shadowBytes n row bs
  | none =>
  let s := (rowLines row).foldl (fun s l => s.lineWhole l) (s.logWrite who row bs)
  (rowLines row).foldl (fun s l => s.encode l) { s with dram := MemOps.writeBytes s.dram row bs }

/-- The element size, and the format (R325). -/
def BankCmd.elem (c : BankCmd) : Nat × Fmt := if c.fmt = 0 then (4, .f32) else (2, .bf16)

/-- Element i of operand x as it was read. -/
def BankCmd.val (c : BankCmd) (x : BankArg) (i : Nat) : Fp :=
  Fp.decode c.elem.2 (leValue (MemOps.readBytes c.snap (x.pa + i * c.elem.1) c.elem.1))

/-- The operand in place k. -/
def BankCmd.arg (c : BankCmd) (k : Nat) : BankArg := c.xs.getD k c.dst

/-- Element i of the destination (R328, R329). -/
def BankCmd.result (c : BankCmd) (i : Nat) : Nat :=
  let a := Fp.decode .f32 c.alpha.toNat
  let p := (mulFp a (c.val (c.arg 0) i)).1
  let x := if c.op = 2 then (sumFp .rne [p, c.val (c.arg 1) i]).1 else p
  (roundTo c.elem.2 .rne x).1

/-- The dot product, formed exactly and rounded once (R328, R329). -/
def BankCmd.dot (c : BankCmd) : Nat :=
  (roundTo .f32 .rne (sumFp .rne ((List.range (c.len / c.elem.1)).map
    (fun i => (mulFp (c.val (c.arg 0) i) (c.val (c.arg 1) i)).1))).1).1

/-- The bytes of a destination row. -/
def BankCmd.rowBytes (c : BankCmd) (row : Nat) : List Byte :=
  let o := row - c.dst.pa
  match c.op with
  | 0 => List.replicate 1024 0
  | 1 => MemOps.readBytes c.snap ((c.arg 0).pa + o) 1024
  | _ => (List.range (1024 / c.elem.1)).flatMap (fun i => leBytes (c.result (o / c.elem.1 + i)) c.elem.1)

/-- n bytes of DRAM as a replay, or any other agent, finds them (R241). -/
def State.dramSeen (s : State) (x : Option Nat) (pa n : Nat) : List Byte :=
  match x with
  | none => MemOps.readBytes s.dram pa n
  | some _ => (List.range n).map (fun i => s.shadowed x (pa + i) (MemOps.read s.dram (pa + i)))

/-- A record of a bank command about a source line, to its page's owner (R269; log 67). -/
def State.bankNote (s : State) (o : Op) (kind : Nat) (line : Nat) (x : BankArg) : State :=
  s.errorRecord o.vd
    { owner := x.owner, kind := kind, grade := x.grade.toNat, eg := o.eg.toNat, die := o.die,
      handle := (((TabOps.find? s.waves o.wave).map (fun w => w.handle.toNat)).getD 0), line := line * 128, pc := 0,
      cycle := s.dieCycle o.die }

/-- The reading half of a part: the rows of the bank are read and checked, with a DETECT record of each line that the check
finds uncorrectable. A command that ends with INTEG leaves every
queue, and none of its parts waits to enter one (R327, R331). -/
def State.bankRead (s : State) (id : Nat) (o : Op) (c : BankCmd) (bank : Nat) : State :=
  let rows := c.rowsIn bank
  let lines := rows.flatMap (fun r => (rowLines r.1).map (fun l => (l, r.2)))
  let isBad := fun (x : Nat × BankArg) => s.lineBad x.1 x.2.grade.toNat
  let found := lines.find? isBad
  let snap := rows.foldl (fun m r => MemOps.writeBytes m r.1 (s.dramSeen o.shadow r.1 1024)) c.snap
  let bad := if c.bad.isSome then c.bad else found
  let left := c.toRead.filter (· != bank)
  let stop := left.isEmpty && bad.isSome
  let c' : BankCmd := { c with
    snap := snap
    bad := bad
    checked := if c.bad.isSome then c.checked else c.checked + 128 * (lines.takeWhile (fun x => !isBad x)).length
    toEnter := if stop then [] else c.toEnter
    toRead := left
    toWrite := if stop then [] else c.toWrite
    code := if stop then 4 else c.code }
  let s := (lines.filter isBad).eraseDups.foldl (fun s x => s.bankNote o 1 x.1 x.2) s
  let s := rows.foldl (fun s r => (rowLines r.1).foldl (fun s l => s.scrub l r.2.grade.toNat r.2.owner) s) s
  let s := s.setOp id { o with body := .bank c' }
  if stop then c.banks.foldl (fun s b => s.leaveBank c.stack b id) s
  else if c.toWrite.contains bank then s
  else s.leaveBank c.stack bank id

/-- A dot product written: a part of its line, which an uncorrectable line keeps or gets its mark for (R259, R331). -/
def State.writeDot (s : State) (x : Option Nat) (who : Spot) (dst : BankArg) (bs : List Byte) : State :=
  match x with
  | some n => s.shadowBytes n dst.pa bs
  | none =>
    let line := dst.pa / 128
    let s := if s.lineBad line dst.grade.toNat then s.markPoisoned line else s.scrub line dst.grade.toNat dst.owner
    let s := s.logWrite who dst.pa bs
    ({ s with dram := MemOps.writeBytes s.dram dst.pa bs }).encode line

/-- The writing half of a part: the destination rows of the bank are written. -/
def State.bankWrite (s : State) (id : Nat) (o : Op) (c : BankCmd) (bank : Nat) : State :=
  let s :=
    if c.op = 3 then s.writeDot o.shadow (Spot.of id) c.dst (leBytes c.dot 4)
    else (c.dstRows.filter (fun r => baBank r == bank)).foldl (fun s r => s.writeRow o.shadow (Spot.of id) r (c.rowBytes r)) s
  (s.setOp id { o with body := .bank { c with toWrite := c.toWrite.filter (· != bank) } }).leaveBank c.stack bank id

/-- BANK_PART_EXECUTE (R328, R331, R333): the command at the head of a bank's queue reads its rows there, and
writes its rows there once every source row is read. -/
def execBankPartExecute (id bank : Nat) (s : State) : Out State :=
  match TabOps.find? s.ops id with
  | none => .next s
  | some o =>
    match o.body with
    | .bank c =>
      if (TabOps.get [] s.bankQ (bankKey c.stack bank)).head? != some id then .next s
      else if c.toRead.contains bank then .next (s.bankRead id o c bank)
      else if c.toRead.isEmpty && c.toWrite.contains bank then .next (s.bankWrite id o c bank)
      else .next s
    | _ => .next s

/-! ### Completion (R332, R335) and BFENCE (R334) -/

/-- The lines of a destination range. -/
def BankCmd.covers (c : BankCmd) (line : Nat) : Bool :=
  decide (c.dst.pa / 128 ≤ line ∧ line ≤ (c.dst.pa + c.dstLen - 1) / 128)

/-- Every cached byte over the destination discarded, dirty or not (R332). -/
def State.bankInvalidate (s : State) (c : BankCmd) : State :=
  { s with
    msc := s.msc.filter (fun l => !c.covers l.1)
    owners := s.owners.filter (fun l => !c.covers l.1)
    cores := TabOps.mapVals (fun _ k => { k with l1 := k.l1.filter (fun l => !c.covers l.1) }) s.cores }

/-- The ENGINE record of the data dropped for an uncorrectable source line (R269, R331; log 67). -/
def State.bankRecord (s : State) (o : Op) (c : BankCmd) : State :=
  match c.bad with
  | none => s
  | some (line, x) => s.bankNote o 6 line x

/-- BANK_COMMAND_COMPLETE (R332). -/
def execBankCommandComplete (id : Nat) (s : State) : Out State :=
  match TabOps.find? s.ops id with
  | none => .next s
  | some o =>
    match o.body with
    | .bank c =>
      if !c.split || !c.toEnter.isEmpty || !c.toRead.isEmpty || !c.toWrite.isEmpty || !s.registerTurn id o then .next s
      else
        let s1 := if c.code = 0 then (if o.shadow.isSome then s else s.bankInvalidate c) else if c.code = 4 then s.bankRecord o c else s
        let s2 := if c.code = 0 && decide (c.t.toNat < c.dst.grade.toNat) then s1.diluteWave o.wave else s1
        .next (s2.finishOp id o c.status)
    | _ => .next s

/-- A wave has bank commands that have not completed. -/
def State.bankBusy (s : State) (wid : Nat) : Bool :=
  s.ops.any (fun o => o.2.wave == wid && match o.2.body with
    | .bank _ => true
    | _ => false)

/-- BFENCE (R334): with nothing outstanding only the acquire. -/
def execBfence (s : State) : Out State :=
  withEnd s fun c =>
    if s.bankBusy c.wid then c.wait s c.w .bfence else c.next (s.acquire (c.route s) 6 [.bank c.wid]) c.w

/-- BFENCE_RESUME (R334): the acquire at system scope, then the next instruction. -/
def execBfenceResume (wid fid : Nat) (s : State) : Out State :=
  match TabOps.find? s.waves wid with
  | none => .next s
  | some w =>
    match w.frag? fid, TabOps.find? s.teams w.team, TabOps.find? s.grids w.grid with
    | some f, some t, some g =>
      if f.park = .bfence ∧ !s.bankBusy wid then
        .next ((s.acquire (s.routeOf wid w t g) 6 [.bank wid]).setWave wid (w.setFrag fid (f.at' (f.pc + BitVec.ofNat 64 f.plen))))
      else .next s
    | _, _, _ => .next s

end Sys2Proof.Machine
end

