-- ==== Sys2Proof/Machine/Circular.lean ====
section
/-! DEFINITION. The circular-buffer instructions (R296 to R301). -/

namespace Sys2Proof.Machine

/-- The buffer that a CBINIT operand describes (R297). -/
def cbOf (a : Word) : Cb :=
  { base := bits a 21 0, size := bits a 39 24, nstg := bits a 51 48 + 1, ncons := bits a 57 53 + 1,
    acq := 0, com := 0, rel := 0, pending := [], relCount := 0 }

/-- The operand's fields are legal and the stages fit the scratchpad (R297). -/
def cbOk (a : Word) (spSize : Nat) : Bool :=
  let b := cbOf a
  bits a 63 58 == 0 && !bit a 52 && bits a 47 40 == 0 && bits a 23 22 == 0 && b.size != 0 && b.base % 128 == 0
    && decide (b.base + b.nstg * b.size * 128 ≤ spSize)

/-- A buffer in use: a stage is acquired and not released, or a bound commit is pending (R297). -/
def Cb.inUse (b : Cb) : Bool :=
  b.acq != b.rel || b.pending.any (fun x =>
    match x with
    | .bound _ _ => true
    | .acquired | .full => false)

/-- CBINIT (R297). -/
def execCbinit (a : SReg) (k : BitVec 3) (s : State) : Out State :=
  scalarOp s [] [a.toNat] [] fun c s =>
    let v := c.w.s a
    if !cbOk v c.t.spSize || (c.t.cb k.toNat).any Cb.inUse then c.raise s Cause.cbbad 0
    else (c.next s c.w).setCb c.w.team k.toNat (cbOf v)

/-- The stage's offset in the scratchpad (R296). -/
def Cb.offset (b : Cb) (stage : BitVec 16) : Nat := b.base + stage.toNat % b.nstg * b.size * 128

/-- CBACQ (R298). -/
def execCbacq (d : SReg) (k : BitVec 3) (s : State) : Out State :=
  scalarOp s [d.toNat] [] [] fun c s =>
    match c.t.cb k.toNat with
    | none => c.raise s Cause.cbbad 0
    | some b =>
      if b.nstg ≤ (b.acq - b.rel).toNat then c.stall s (.cbacq k)
      else
        let s := s.acquire (c.route s) 1 [.freed c.w.team k.toNat]
        let v := BitVec.ofNat 64 (b.acq.toNat * 2 ^ 32 + b.offset b.acq)
        (c.next s (c.w.setE d v)).setCb c.w.team k.toNat
          { b with acq := b.acq + 1, pending := b.pending ++ [.acquired] }

/-- The oldest acquired stage that is not committed replaced (R299). -/
def commitOldest (x : CbCommit) : List CbCommit → List CbCommit
  | [] => []
  | .acquired :: rest => x :: rest
  | y :: rest => y :: commitOldest x rest

/-- The oldest acquired stage that is not committed. -/
def Cb.oldest (b : Cb) : BitVec 16 := b.com + BitVec.ofNat 16 (b.pending.findIdx (· == .acquired))

/-- CBCOMMIT (R299). -/
def execCbcommit (a : SReg) (k : BitVec 3) (s : State) : Out State :=
  scalarOp s [] [a.toNat] [] fun c s =>
    let v := c.w.s a
    let n := v.extractLsb' 0 16
    let bound := bit v 16
    match c.t.cb k.toNat with
    | none => c.raise s Cause.cbbad 0
    | some b =>
      let causes := (if b.pending.contains .acquired then 0 else Cause.cbbad)
        ||| (if bound && (c.w.batch 0).unclosed n then Cause.batchbad else 0)
      if causes ≠ 0 then c.raise s causes 0
      else if bound then
        ((c.next s c.w).setCb c.w.team k.toNat { b with pending := commitOldest (.bound c.wid n) b.pending }).settleCommits
          c.wid
      else
        (c.next (s.release (c.route s) 1 (.stage c.w.team k.toNat b.oldest)) c.w).setCb c.w.team k.toNat { b with pending := commitOldest .full b.pending }

/-- CBWAIT (R300). -/
def execCbwait (a : SReg) (k : BitVec 3) (s : State) : Out State :=
  scalarOp s [] [a.toNat] [] fun c s =>
    let v := c.w.s a
    match c.t.cb k.toNat with
    | none => c.raise s Cause.cbbad 0
    | some b =>
      let stage := if bit v 16 then v.extractLsb' 0 16 else b.rel
      if b.nstg ≤ (stage - b.rel).toNat then c.raise s Cause.cbbad 0
      else if b.isFull stage then c.next (s.acquire (c.route s) 1 [.stage c.w.team k.toNat stage]) c.w
      else c.wait s c.w (.cbwait k stage)

/-- CBREL (R301). -/
def execCbrel (a : SReg) (k : BitVec 3) (s : State) : Out State :=
  scalarOp s [] [a.toNat] [] fun c s =>
    match c.t.cb k.toNat with
    | none => c.raise s Cause.cbbad 0
    | some b =>
      if (c.w.s a).extractLsb' 0 16 ≠ b.rel ∨ b.com = b.rel then c.raise s Cause.cbbad 0
      else
        let s := s.release (c.route s) 1 (.freed c.w.team k.toNat)
        let b := if b.relCount + 1 = b.ncons then
            { b with rel := b.rel + 1, relCount := 0, filled := TabOps.drop b.filled b.rel.toNat }
          else { b with relCount := b.relCount + 1 }
        (c.next s c.w).setCb c.w.team k.toNat b

end Sys2Proof.Machine
end

