-- ==== Sys2Proof/Machine/Coll.lean ====
section
/-! DEFINITION. Collectives (R366 to R376): issue, the reading of a rank's source, a rank's part, and a lost peer. -/

namespace Sys2Proof.Machine

/-! ### Groups (R366) -/

/-- A group table entry and its list as a part reads them; the ranks of an entry that may be used, with the physical
address of each. -/
structure GroupRead where
  causes : Word
  info   : Word
  parts  : List Part
  tmo    : Nat
  ranks  : List Word
  places : List Nat
  deriving DecidableEq, Repr

/-- Entry g of a device's group table, then its list, as loads that need R; both are read before VALID is tested (R366,
R368). An entry that is not valid, or names no or too many ranks, has no ranks. -/
def State.groupRead (s : State) (r : Route) (g : Nat) : GroupRead :=
  let e := s.peek r ((s.vd r.vd).grouptab + BitVec.ofNat 64 (16 * g)) 16
  let ws := wordsOf e.2 2
  let n := bits (ws.getD 1 0) 12 0
  if e.1.causes ≠ 0 then
    { causes := e.1.causes, info := e.1.info.getD 0, parts := e.1.parts, tmo := 0, ranks := [], places := [] }
  else
    let ls := (List.range n).map (fun i => s.peek r ((ws.getD 0 0 &&& ~~~7) + BitVec.ofNat 64 (8 * i)) 8)
    let usable := bit (ws.getD 1 0) 63 && decide (n ≤ 4096)
    { causes := causesOf (ls.map Prod.fst)
      info := infoOf (ls.map Prod.fst)
      parts := e.1.parts ++ partsOf (ls.map Prod.fst)
      tmo := bits (ws.getD 1 0) 31 24
      ranks := if usable then ls.map (fun l => (wordsOf l.2 1).headD 0) else []
      places := if usable then ls.map (fun l => (l.1.parts.head?.map Part.pa).getD 0) else [] }

/-- What the read of a group by the hardware itself leaves: the walks, and the check, hit and record of each line at its home
(R204, R259, R269). -/
def State.groupReads (s : State) (die vd : Nat) (x : GroupRead) : State :=
  let s := s.walkTrace die vd x.causes x.info
  x.parts.foldl (fun s p => (s.keep die vd p.va).unitReads vd p.pa p.n) s

/-- The endpoint of a wave of the module (R366). -/
def endpointOf (moduleNo die : Nat) (handle : BitVec 24) : Word :=
  BitVec.ofNat 64 (moduleNo * 2 ^ 32 + die * 2 ^ 24 + handle.toNat)

/-- MODULE, DIE and HANDLE of an endpoint. -/
def endModule (e : Word) : Nat := bits e 39 32
def endDie (e : Word) : Nat := bits e 28 24
def endHandle (e : Word) : Nat := bits e 23 0

/-- The rank of an endpoint that satisfies p: the index of the one such entry. -/
def rankOf (ranks : List Word) (p : Word → Bool) : Option Nat :=
  match (List.range ranks.length).filter (fun i => p (ranks.getD i 0)) with
  | [q] => some q
  | _ => none

/-! ### Descriptors (R367) -/

/-- The bytes that a collective reads at SRC and writes at DST, for n ranks. -/
def collSizes (op n len : Nat) : Nat × Nat :=
  match op with
  | 1 => (len, n * len)
  | 2 => (n * len, len)
  | _ => (len, len)

/-- The place at which SRC and DST may overlap, for rank q. -/
def collMeets (op q len src dst : Nat) : Bool :=
  match op with
  | 1 => src == dst + q * len
  | 2 => dst == src + q * len
  | _ => src == dst

/-- A descriptor is legal for rank q of n (R367). -/
def collOk (op : Nat) (ws : List Word) (n q : Nat) : Bool :=
  let w := fun i => ws.getD i 0
  let dst := (w 0).toNat
  let src := (w 1).toNat
  let rop := bits (w 2) 55 52
  let root := bits (w 2) 51 40
  let len := bits (w 2) 23 0
  let z := collSizes op n len
  let reads := op != 3 || root == q
  dst % 4 == 0 && (!reads || src % 4 == 0)
    && (if op = 0 ∨ op = 2 then decide (rop ≤ 7) else rop == 0)
    && (if op = 3 then decide (root < n) else root == 0)
    && bits (w 2) 39 24 == 0 && decide (4 ≤ len ∧ len ≤ 4194304) && len % 4 == 0 && w 3 == 0
    && decide (n * len ≤ 2 ^ 32) && decide (dst + z.2 ≤ 2 ^ 64)
    && (!reads || (decide (src + z.1 ≤ 2 ^ 64)
        && (collMeets op q len src dst || !overlaps src z.1 dst z.2)))

/-! ### Issue (R368, R369) -/

/-- The key of a rank's count of collectives. -/
def collKey (vd g q : Nat) : Nat := (vd * 256 + g) * 4096 + q

/-- The key of the count of a command: replays count theirs apart, so that a rank's replay meets its peers' replays and no
other part (R241, R404; log 62). -/
def CollCmd.key (c : CollCmd) (x : Option Nat) : Nat := collKey c.vd c.group c.rank + (if x.isSome then 2 ^ 32 else 0)

/-- The command of rank q, the next of its group (R369), of a replay or not. -/
def State.collCmd (s : State) (x : Option Nat) (op : Nat) (ws : List Word) (vd : Nat) (g : GroupRead) (q : Nat) : CollCmd :=
  let w2 := ws.getD 2 0
  let c : CollCmd :=
    { op := op, dst := ws.getD 0 0, src := ws.getD 1 0, vd := vd, group := bits w2 63 56, rop := bits w2 55 52,
      root := bits w2 51 40, len := bits w2 23 0, ranks := g.ranks, rank := q, seq := 0, tmo := g.tmo, since := 0, snap := [] }
  { c with seq := TabOps.get (if x.isSome then 2 ^ 32 else 0) s.collSeq (c.key x) }

/-- The operation that is the n-th of a group, begun or not. -/
def State.round (s : State) (vd group seq : Nat) : Round :=
  (s.rounds.find? (fun r => r.vd == vd && r.group == group && r.seq == seq)).getD
    { vd := vd, group := group, seq := seq, parts := [], lost := false }

/-- An operation replaced. -/
def State.setRound (s : State) (x : Round) : State :=
  { s with rounds := x :: s.rounds.filter (fun r => !(r.vd == x.vd && r.group == x.group && r.seq == x.seq)) }

/-- A rank's part joins its operation. -/
def State.addPart (s : State) (vd group seq rank : Nat) (p : CollPart) : State :=
  let r := s.round vd group seq
  s.setRound { r with parts := TabOps.put r.parts rank p }

/-- A rank reads its source, but a rank of XBCST other than ROOT. -/
def CollCmd.reads (c : CollCmd) : Bool := c.op != 3 || c.root == c.rank

/-- A command issued: its number in its group, and its part of the operation. -/
def State.collIssue (s : State) (x : Option Nat) (c : CollCmd) (die : Nat) : State :=
  let s : State := { s with collSeq := TabOps.put s.collSeq (c.key x) (c.seq + 1) }
  s.addPart c.vd c.group c.seq c.rank
    { op := c.op, len := c.len, rop := c.rop, root := c.root, die := some die,
      blocks := if c.reads then none else some [] }

/-- The collectives of a core's waves that have not completed. -/
def State.collQueue (s : State) (key : Nat) : Nat :=
  (s.ops.filter (fun o => coreKey o.2.die o.2.core == key && o.2.wave != 0
    && match o.2.body with
       | .coll _ => true
       | _ => false)).length

/-- The issue of a collective (R368). -/
def collInstr (s : State) (op : Nat) (d a : SReg) (rel : Bool) : Out State :=
  commandOp s d a fun c s =>
    let va := c.w.s a
    if c.w.idx ≠ c.g.packet.producer then c.raise s Cause.notproducer 0
    else if va.extractLsb' 0 5 ≠ 0 then c.raise s Cause.align va
    else c.descriptor s va 32 fun ws _ ps s =>
      let r := c.route s
      let g := s.groupRead r (bits (ws.getD 2 0) 63 56)
      if g.causes ≠ 0 then c.raiseMem s g.causes g.info
      else match c.holdPort s false g.parts with
        | some p => c.hold s p
        | none =>
          let bad := s.badLines r false g.parts
          if !bad.isEmpty then c.badScalar s bad g.parts
          else match rankOf g.ranks (· == endpointOf s.moduleNo c.w.issueDie c.w.handle) with
            | none => c.raise s Cause.collbad 0
            | some q =>
              if !collOk op ws g.ranks.length q then c.raise s Cause.collbad 0
              else if 64 ≤ s.collQueue c.w.key then c.stall s (.queueFull .coll)
              else
                let s := ((s.keepParts r g.parts).loadParts r 0 0 ps).loadParts r 0 0 g.parts
                let s := if rel then s.release r 6 (.issue s.opNext) else s
                let cmd := s.collCmd c.g.shadow op ws c.g.vd g q
                ((c.next s c.w).opStart (c.newOp (.coll cmd) d 3)).collIssue c.g.shadow cmd c.w.issueDie

/-- XAR (R368). -/
def execXar (d a : SReg) (r : Bool) (s : State) : Out State := collInstr s 0 d a r
/-- XAG (R368). -/
def execXag (d a : SReg) (r : Bool) (s : State) : Out State := collInstr s 1 d a r
/-- XRS (R368). -/
def execXrs (d a : SReg) (r : Bool) (s : State) : Out State := collInstr s 2 d a r
/-- XBCST (R368). -/
def execXbcst (d a : SReg) (r : Bool) (s : State) : Out State := collInstr s 3 d a r

/-! ### Reading a source (R370, R372) -/

/-- The blocks of a rank's source. -/
def CollCmd.blockCount (c : CollCmd) : Nat := if c.op = 2 then c.ranks.length else 1

/-- Element i of block b of the source. -/
def CollCmd.sourceElem (c : CollCmd) (s : State) (r : Route) (b i : Nat) : LaneAcc :=
  s.locate r.at' r.vd .load i (c.src + BitVec.ofNat 64 (b * c.len + 4 * i)) 4

/-- The homes of parts, 100 for the CXL tier. -/
def State.homesOf (s : State) (ps : List Part) : List Nat :=
  (ps.map (fun p => if hbmTop ≤ p.pa then 100 else s.homeDie p.pa)).eraseDups

/-- The value of an element: as memory stood when the part began, or as it stands now, free (R376, log 20). -/
def CollCmd.value (c : CollCmd) (s : State) (r : Route) (b i : Nat) (a : LaneAcc) : Nat :=
  let now := a.parts.flatMap (s.partBytes r false [])
  let old := a.parts.flatMap (fun p => MemOps.readBytes c.snap p.pa p.n)
  leValue (if now = old then now
    else if Config.freeChoice (Nat.pair s.free (b * c.len + i)) % 2 = 0 then now else old)

/-- A block as it is read; an uncorrectable element fails it. -/
def CollCmd.block (c : CollCmd) (s : State) (r : Route) (b : Nat) : CollBlock :=
  let as := (List.range (c.len / 4)).map (c.sourceElem s r b)
  { vals := (as.zipIdx).map (fun x => c.value s r b x.2 x.1)
    grade := as.foldl (fun (t : Grade) (a : LaneAcc) => Grade.min t (pageGrade a.parts)) 3
    code := if as.any (fun (a : LaneAcc) => !(s.badLines r false a.parts).isEmpty) then 4
      else codeOf (causesOf as)
    homes := s.homesOf (partsOf as) }

/-- The part of a rank with its blocks. -/
def State.setBlocks (s : State) (c : CollCmd) (bs : List CollBlock) : State :=
  let r := s.round c.vd c.group c.seq
  match TabOps.find? r.parts c.rank with
  | some p => s.setRound { r with parts := TabOps.put r.parts c.rank { p with blocks := some bs } }
  | none => s

/-- The source of a rank read, once: a fault of a translation is offered to the kernel (R373); every uncorrectable line
gives the record of the read that found it, and the operation an ENGINE record (R269, R372). -/
def State.collRead (s : State) (id : Nat) (o : Op) (c : CollCmd) : State :=
  let r := o.route
  let as := (List.range c.blockCount).flatMap (fun b => (List.range (c.len / 4)).map (c.sourceElem s r b))
  match as.find? (fun a => codeOf a.causes == 1 || codeOf a.causes == 2) with
  | some a => (s.walkTraces r [a]).setOp id { o with fault := codeOf a.causes }
  | none =>
    let bs := (List.range c.blockCount).map (c.block s r)
    let s0 := s.keepParts r (partsOf as)
    let s1 := if (s.badLines r false (partsOf as)).isEmpty then s0.homeReads o.vd (partsOf as)
      else s0.engineRecord o (partsOf as)
    let s2 := s1.setBlocks c bs
    { s2 with free := s2.free + 1 }

/-! ### A rank's part (R369 to R374) -/

/-- One level of the tree: neighbours combined, the lower index on the left. -/
def treeLevel (f : Nat → Nat → Nat) : List Nat → List Nat
  | a :: b :: t => f a b :: treeLevel f t
  | t => t

/-- Tree of a list of values (R370). -/
def treeOf (f : Nat → Nat → Nat) : Nat → List Nat → Nat
  | 0, xs => xs.headD 0
  | n + 1, xs => if xs.length ≤ 1 then xs.headD 0 else treeOf f n (treeLevel f xs)

/-- The ranks whose source a rank's result needs. -/
def CollCmd.needs (c : CollCmd) : List Nat := if c.op = 3 then [c.root] else List.range c.ranks.length

/-- The block of another rank that a rank's result uses. -/
def CollCmd.used (c : CollCmd) (p : CollPart) : Option CollBlock :=
  (p.blocks.getD [])[if c.op = 2 then c.rank else 0]?

/-- The blocks that the result uses, with their ranks, as far as they are there. -/
def CollCmd.inputs (c : CollCmd) (r : Round) : List (Nat × CollBlock) :=
  c.needs.filterMap (fun p => (TabOps.find? r.parts p).bind (fun x => (c.used x).map (fun b => (p, b))))

/-- The result of a rank, as elements (R370). -/
def CollCmd.result (c : CollCmd) (ins : List (Nat × CollBlock)) : List Nat :=
  if c.op = 0 ∨ c.op = 2 then
    (List.range (c.len / 4)).map (fun i =>
      treeOf (reduceValue c.rop) 13 (ins.map (fun b => b.2.vals.getD i 0)))
  else ins.flatMap (fun b => b.2.vals)

/-- Two parts agree (R369). -/
def CollPart.agrees (p q : CollPart) : Bool := p.op == q.op && p.len == q.len && p.rop == q.rop && p.root == q.root

/-- The groups of a device whose table entries may stand in memory: where neither end of the table is mapped, the first stands
for all. -/
def State.groupsOf (s : State) (vd : Nat) : List Nat :=
  let r := engineRoute (ioDie vd) vd
  let lost := fun (i : Nat) => (s.locate r.at' vd .load 0 ((s.vd vd).grouptab + BitVec.ofNat 64 (16 * i)) 16).causes != 0
  if lost 0 && lost 255 then [0] else List.range 256

/-- The marks of an endpoint in a group as it was read (R374). -/
def State.marksIn (s : State) (e : Word) (vd g : Nat) (x : GroupRead) : List Departed :=
  if x.causes ≠ 0 then []
  else ((List.range x.ranks.length).filter (fun i => x.ranks.getD i 0 == e)).map (fun i =>
    { vd := vd, group := g, endpoint := e, pa := x.places.getD i 0, logAt := s.writeLog.length })

/-- An endpoint's wave has ended: every valid group whose list names it gets a mark; the lists are read for it (R374). -/
def State.depart (s : State) (e : Word) : State :=
  let reads := s.vds.flatMap (fun v => (s.groupsOf v.1).map (fun g =>
    (v.1, g, s.groupRead (engineRoute (ioDie v.1) v.1) g)))
  let t := reads.foldl (fun t x => t.groupReads (ioDie x.1) x.1 x.2.2) s
  { t with departed := reads.flatMap (fun x => s.marksIn e x.1 x.2.1 x.2.2) ++ s.departed }

/-- A mark stands until its list entry is rewritten (R374). -/
def State.marked (s : State) (m : Departed) : Bool :=
  (s.writeLog.take (s.writeLog.length - m.logAt)).all (fun x =>
    match x with
    | .wrote x => (x.over m.pa 8).isEmpty
    | .released _ _ _ | .acquired _ _ _ | .completed _ _ _ _ _ | .retired _ _ _ => true)

/-- A rank of a command's group has departed: the endpoint that the command's list gives it (R374). -/
def State.hasDeparted (s : State) (c : CollCmd) (rank : Nat) : Bool :=
  s.departed.any (fun m => m.vd == c.vd && m.group == c.group && c.ranks[rank]? == some m.endpoint && s.marked m)

/-- The mark of a wave that has ended (R374). -/
def State.departWave (s : State) (wid : Nat) : State :=
  match TabOps.find? s.waves wid with
  | some w => (s.depart (endpointOf s.moduleNo w.issueDie w.handle)).modWave wid (fun w => { w with marked := true })
  | none => s

/-- PATH of a part: its die of issue, other dies, the CXL tier, other modules (R373; log 82). -/
def collPath (s : State) (o : Op) (c : CollCmd) (r : Round) (dst : List Nat) : Nat :=
  let ins := c.inputs r
  let hs := dst ++ ins.flatMap (fun b => b.2.homes)
  let dies := ins.filterMap (fun b => (TabOps.find? r.parts b.1).map CollPart.die)
  if ins.any (fun b => endModule (c.ranks.getD b.1 0) != s.moduleNo) then 3
  else if hs.contains 100 then 2
  else if hs.all (· == o.issueDie) && dies.all (· == some o.issueDie) then 0
  else 1

/-- t of R372. -/
def CollCmd.grade (c : CollCmd) (r : Round) : Grade := (c.inputs r).foldl (fun t b => Grade.min t b.2.grade) 3

/-- An operation whose parts have all been issued and completed is forgotten. -/
def State.closeRound (s : State) (c : CollCmd) : State :=
  let r := s.round c.vd c.group c.seq
  let busy := s.ops.any (fun o => match o.2.body with
    | .coll d => d.vd == c.vd && d.group == c.group && d.seq == c.seq
    | _ => false)
  if busy || r.parts.length < c.ranks.length then s
  else { s with rounds := s.rounds.filter (fun x => !(x.vd == c.vd && x.group == c.group && x.seq == c.seq)) }

/-- A part ends with a nonzero CODE: it writes nothing (R372 to R374). -/
def State.collFail (s : State) (id : Nat) (o : Op) (c : CollCmd) (code : Nat) : State :=
  let r := s.round c.vd c.group c.seq
  (s.finishOp id o (statusWord code (collPath s o c r []) (c.grade r) 0)).closeRound c

/-- The elements of DST as stores. -/
def CollCmd.dests (c : CollCmd) (s : State) (r : Route) : List LaneAcc :=
  (List.range ((collSizes c.op c.ranks.length c.len).2 / 4)).map
    (fun i => s.locate r.at' r.vd .store i (c.dst + BitVec.ofNat 64 (4 * i)) 4)

/-- A part whose inputs have arrived: the checks of its destination and the commit (R372, R373). -/
def State.collCommit (s : State) (id : Nat) (o : Op) (c : CollCmd) (r : Round) : State :=
  let ins := c.inputs r
  let bad := (ins.map (fun b => b.2.code)).filter (· != 0)
  match bad[Config.freeChoice (Nat.pair o.draw 0) % bad.length]? with
  | some code => s.collFail id o c code
  | none =>
    let ds := c.dests s o.route
    match ds.find? (fun a => a.causes != 0) with
    | some a =>
      if codeOf a.causes ≤ 2 then (s.walkTraces o.route [a]).setOp id { o with fault := codeOf a.causes } else s.collFail id o c (codeOf a.causes)
    | none =>
      let t := c.grade r
      let check := gradeCheck t (partsOf ds)
      if check = .strict then s.collFail id o c 3
      else
        let n := (collSizes c.op c.ranks.length c.len).2
        let path := collPath s o c r (s.homesOf (partsOf ds))
        let s1 := s.homeWriteAll o.shadow (Spot.of id) ((ds.zip (c.result ins)).flatMap (fun x => spreadBytes x.1.parts (leBytes x.2 4)))
        let s2 := ds.foldl (fun s a => s.keepParts o.route a.parts) s1
        let s3 := if check = .dilute then s2.diluteWave o.wave else s2
        (s3.finishOp id o (statusWord 0 path t (if 2 ^ 24 ≤ n then c.len else n))).closeRound c

/-- The operation as a rank's part finds it. -/
def State.collStep (s : State) (id : Nat) (o : Op) (c : CollCmd) : State :=
  let r := s.round c.vd c.group c.seq
  let missing := (List.range c.ranks.length).filter (fun p => (TabOps.find? r.parts p).isNone)
  let gone := missing.filter (s.hasDeparted c)
  if r.lost then s.collFail id o c 10
  else if c.reads && ((TabOps.find? r.parts c.rank).bind CollPart.blocks).isNone then s.collRead id o c
  else if gone.any c.needs.contains then s.collFail id o c 10
  else if missing.length ≠ gone.length then s
  else match TabOps.find? r.parts 0 with
    | some p =>
      if r.parts.any (fun q => !q.2.agrees p) then s.collFail id o c 9
      else if c.needs.any (fun q => ((TabOps.find? r.parts q).bind CollPart.blocks).isNone) then s
      else s.collCommit id o c r
    | none =>
      if c.needs.any (fun q => ((TabOps.find? r.parts q).bind CollPart.blocks).isNone) then s
      else s.collCommit id o c r

/-- A part that an access ends with a CODE; an input that it has not read fails its peers as well (R373, R381). -/
def State.collEnd (s : State) (id : Nat) (o : Op) (c : CollCmd) (code : Nat) : State :=
  let read := ((TabOps.find? (s.round c.vd c.group c.seq).parts c.rank).bind CollPart.blocks).isSome
  let failed : CollBlock := { vals := [], grade := 3, code := code, homes := [] }
  (if read then s else s.setBlocks c (List.replicate c.blockCount failed)).collFail id o c code

/-- COLLECTIVE_PART_COMPLETE (R369 to R373): a part reads its source, waits for its peers, and commits its result. -/
def execCollectivePartComplete (id : Nat) (s : State) : Out State :=
  match TabOps.find? s.ops id with
  | none => .next s
  | some o =>
    match o.body with
    | .coll c =>
      if o.life != .running || (o.fault != 0 && o.fault < 16) || !s.registerTurn id o || !o.allMoved then .next s
      else if 16 ≤ o.fault then .next (s.collEnd id o c (o.fault - 16))
      else .next (s.collStep id o c)
    | _ => .next s

/-- A part still waits for a peer (R374). -/
def State.collWaits (s : State) (c : CollCmd) : Bool :=
  let r := s.round c.vd c.group c.seq
  (List.range c.ranks.length).any (fun p => (TabOps.find? r.parts p).isNone)
    || c.needs.any (fun q => q != c.rank && ((TabOps.find? r.parts q).bind CollPart.blocks).isNone)

/-- Another part of the module reads its source for an operation in this cycle: every beat has moved, and nothing holds it. -/
def State.readsNow (s : State) (id : Nat) (c : CollCmd) : Bool :=
  s.ops.any (fun x => x.1 != id &&
    (match x.2.body with
     | .coll d => d.vd == c.vd && d.group == c.group && d.seq == c.seq && x.2.life == .running && x.2.fault == 0
        && s.registerTurn x.1 x.2 && x.2.allMoved && d.reads
        && ((TabOps.find? (s.round d.vd d.group d.seq).parts d.rank).bind CollPart.blocks).isNone
     | _ => false))

/-- An input of a part arrives in this cycle: another part of the module brings it, or it stands before the next cycle of the
agenda (R381). -/
def State.arriving (s : State) (id : Nat) (c : CollCmd) : Bool :=
  s.readsNow id c || (s.agenda.takeWhile (fun a =>
    match a with
    | .tick _ | .cpTick => false
    | _ => true)).any (fun a =>
    match a with
    | .peerPart vd g n _ _ => vd == c.vd && g == c.group && n == c.seq
    | _ => false)

/-- PEER_TIMEOUT (R374): a part that has waited TMO times 2^20 cycles ends with PEERLOST, and its peers learn of it; an
input of the same cycle comes first (R381). -/
def execPeerTimeout (id : Nat) (s : State) : Out State :=
  match TabOps.find? s.ops id with
  | none => .next s
  | some o =>
    match o.body with
    | .coll c =>
      if o.life == .running && c.tmo != 0 && decide (c.tmo * 2 ^ 20 ≤ (s.dieCycle o.die - c.since).toNat)
          && s.collWaits c && !s.arriving id c && s.registerTurn id o then
        .next ((s.setRound { s.round c.vd c.group c.seq with lost := true }).collFail id o c 10)
      else .next s
    | _ => .next s

end Sys2Proof.Machine
end

