-- ==== Sys2Proof/Machine/Ports.lean ====
section
/-! DEFINITION. The engines' faults (R293), the walkers and memory controllers (R199, R204, R205), the die-to-die
transport (R363), the CXL ports (R351, R377), and the outside world over PCIe and RoCE (R378 to R380). -/

namespace Sys2Proof.Machine

/-! ### Engine faults (R293) -/

/-- The answer to the fault of a grid's completion record: its page is mapped and the write is tried again, or the record
is not written (R389). -/
def State.recordAnswer (s : State) (gid : Nat) (mapped : Bool) : State :=
  s.modGrid gid (fun g => if g.asked = 1 then { g with asked := if mapped then 0 else 2 } else g)

/-- ENGINE_FAULT_RESOLUTION (R293, R389): the access is replayed, or the operation ends with its CODE. -/
def execEngineFaultResolution (id : Nat) (mapped : Bool) (s : State) : Out State :=
  match TabOps.find? s.ops id with
  | none => .next (s.recordAnswer id mapped)
  | some o =>
    if o.fault = 0 ∨ 16 ≤ o.fault then .next s
    else if mapped then .next (s.setOp id { o with fault := 0 })
    else
      let s := s.setOp id { o with fault := 16 + o.fault }
      match o.body with
      | .copy _ => execCopyOperationComplete id s
      | .coll _ => execCollectivePartComplete id s
      | .bank _ | .mma _ | .mzero _ => .next s

/-! ### Walks and memory controllers (R199, R204, R205) -/

/-- PAGE_WALK (R204, R205): a walk that reaches a leaf leaves it in the die's TLB, whatever the check of the access
finds; a walk that raises XLATE leaves nothing. -/
def execPageWalk (vd die : Nat) (va : Word) (_acc : Access) (s : State) : Out State := .next (s.keep die vd va)

/-- The key of a token bucket. -/
def bucketKey (die vd : Nat) : Nat := die * 16 + vd

/-- The tokens that a request costs (R199). -/
def MemReq.cost (q : MemReq) : Nat := (q.size + 15) / 16

/-- A device whose bucket holds enough competes. -/
def State.competes (s : State) (die : Nat) (q : MemReq) : Bool :=
  decide (q.cost ≤ TabOps.get 0 s.buckets (bucketKey die q.vd))

/-- The bytes of a line after a fill of a block from DRAM: bytes that the line holds stay. -/
def mscFillData (s : State) (line off n : Nat) (l : MscLine) : List Byte :=
  (List.range 128).map fun i =>
    if off ≤ i ∧ i < off + n ∧ !heldByte l.valid l.dirty i then MemOps.read s.dram (line * 128 + i) else l.data.getD i 0

/-- The sectors of a request filled in its home's MSC (R198, R201); a line that is bad or has no room is not. -/
def State.serve (s : State) (q : MemReq) : State :=
  if s.mscHolds q.line q.off q.size || !q.alloc || s.lineBad q.line (s.lineGrade q.line) then s
  else match TabOps.find? s.msc q.line with
    | some l => s.setMsc q.line
        { l with data := mscFillData s q.line q.off q.size l, valid := l.valid ||| sectorMask q.off q.size }
    | none =>
      match s.mscRoom q.line with
      | none => s
      | some s => s.setMsc q.line
          { MscLine.empty with
            data := mscFillData s q.line q.off q.size MscLine.empty
            valid := sectorMask q.off q.size }

/-- MEMORY_REQUEST_SERVICE (R199): the oldest request that competes, else the oldest one; its tokens are spent, down to an
empty bucket: the model keeps no debt of a device that is served without enough of them (log 74). In deterministic mode
the oldest one (R404). -/
def execMemoryRequestService (die : Nat) (s : State) : Out State :=
  let qs := TabOps.get [] s.requests die
  match (if s.replaying then none else qs.findIdx? (s.competes die)), qs with
  | _, [] => .next s
  | i?, q0 :: _ =>
    let i := i?.getD 0
    let q := qs.getD i q0
    let left := TabOps.get 0 s.buckets (bucketKey die q.vd) - q.cost
    let s1 : State := { s with
      requests := TabOps.put s.requests die (qs.eraseIdx i)
      buckets := TabOps.put s.buckets (bucketKey die q.vd) left }
    .next (s1.serve q)

/-- The buckets of a die refilled, up to their depth (R199, R382). -/
def State.refill (s : State) (die : Nat) : State :=
  { s with buckets := s.vds.foldl (fun b v =>
      TabOps.put b (bucketKey die v.1) (min v.2.depth (TabOps.get 0 b (bucketKey die v.1) + v.2.rate))) s.buckets }

/-! ### The die-to-die transport (R362, R363) -/

/-- Row and column of a compute die in the mesh (R362). -/
def dieRow (d : Nat) : Nat := d / 6
def dieCol (d : Nat) : Nat := d % 6

/-- The steps from a row or column to another, without the first. -/
def stepsTo (a b : Nat) : List Nat :=
  if a ≤ b then (List.range (b - a)).map (fun i => a + 1 + i) else (List.range (a - b)).map (fun i => a - 1 - i)

/-- The dies that a message visits after its source: along its row first, then along its column; from an I/O die it enters on
the linked die of the destination's row, and it leaves for one at the end of its own row (R362; log 54). -/
def diePath (src dst : Nat) : List Nat :=
  let row := if src < 24 then dieRow src else if dst < 24 then dieRow dst else 0
  let from' := if src < 24 then dieCol src else if src = 24 then 0 else 5
  let to' := if dst < 24 then dieCol dst else if dst = 24 then 0 else 5
  let along := (stepsTo from' to').map (fun c => row * 6 + c)
  if src = dst then []
  else (if src < 24 then [] else [row * 6 + from']) ++ along
    ++ (if dst < 24 then (stepsTo row (dieRow dst)).map (fun r => r * 6 + to') else [dst])

/-- A channel without messages. -/
def Link.start (src dst : Nat) (cls : LinkClass) : Link :=
  { src := src, dst := dst, cls := cls, nextSeq := 1, seen := 0, wire := [], nacked := [] }

/-- The number of a class. -/
def LinkClass.code : LinkClass → Nat
  | .request => 0
  | .response => 1
  | .data => 2
  | .engine => 3

/-- The key of a channel. -/
def linkKey (src dst : Nat) (cls : LinkClass) : Nat := (src * 32 + dst) * 4 + cls.code

/-- The receiving edge of a step of a channel's path, with its class. -/
def Link.edge (l : Link) (hop : Nat) : EdgeClass :=
  { die := (diePath l.src l.dst).getD hop l.dst, side := (l.src :: diePath l.src l.dst).getD hop l.src, cls := l.cls }

/-- The steps of a channel's path. -/
def Link.hops (l : Link) : Nat := (diePath l.src l.dst).length

/-- A message stands at the last edge of its path: its destination receives it. -/
def Link.arrived (l : Link) (m : Message) : Bool := decide (l.hops ≤ m.hop + 1)

/-- The flits of a channel that stand in the buffer of a class at a receiving edge. -/
def Link.flitsAt (l : Link) (e : EdgeClass) : Nat := ((l.wire.filter (fun m => l.edge m.hop == e)).map Message.flits).sum

/-- The flits in the buffer of a class at a receiving edge (R363). -/
def State.buffered (s : State) (e : EdgeClass) : Nat := (s.links.map (fun l => l.2.flitsAt e)).sum

/-- The stop signal of a class at a receiving edge, as its buffer stands: raised above 48 flits, lowered below 32 (R363). -/
def State.signal (s : State) (e : EdgeClass) : State :=
  let n := s.buffered e
  { s with stops := if 48 < n then (e :: s.stops).eraseDups else if n < 32 then s.stops.filter (· != e) else s.stops }

/-- A channel changed, and the stop signals along its path. -/
def State.setLink (s : State) (k : Nat) (l : Link) : State :=
  (List.range l.hops).foldl (fun s h => s.signal (l.edge h)) { s with links := TabOps.put s.links k l }

/-- The buffer at a step of a channel's path takes a message: its class is not stopped there, and the 96 flits hold it
(R363). -/
def State.edgeTakes (s : State) (l : Link) (hop flits : Nat) : Bool :=
  !s.stops.contains (l.edge hop) && decide (s.buffered (l.edge hop) + flits ≤ 96)

/-- A message given to a channel, if the first edge of its path takes it. -/
def State.d2dSend (s : State) (src dst : Nat) (cls : LinkClass) (flits : Nat) : State :=
  let l := TabOps.get (Link.start src dst cls) s.links (linkKey src dst cls)
  if l.hops = 0 || !s.edgeTakes l 0 flits then s
  else s.setLink (linkKey src dst cls)
    { l with nextSeq := l.nextSeq + 1, wire := l.wire ++ [{ seq := l.nextSeq, flits := flits }] }

/-- The n-th message of a channel crosses the next edge of its path, behind every message before it (R363). -/
def State.d2dForward (s : State) (k n : Nat) : State :=
  match TabOps.find? s.links k with
  | none => s
  | some l =>
    match l.wire[n]? with
    | none => s
    | some m =>
      if l.arrived m || !s.edgeTakes l (m.hop + 1) m.flits || (l.wire.take n).any (fun x => decide (x.hop ≤ m.hop)) then s
      else s.setLink k { l with wire := setAt l.wire n { m with hop := m.hop + 1 } }

/-- The cycles of a die as the transport counts them: those of its core 0, for an I/O die those of its command processor. -/
def State.linkCycle (s : State) (d : Nat) : Nat := if d < 24 then (s.dieCycle d).toNat else s.cpCycle

/-- D2D_MESSAGE_RECEIVE (R363): the oldest message of a channel at its last edge: a duplicate is discarded, the next message
in order is taken when there is staging space, anything else is NACKed. -/
def execD2dMessageReceive (link : Nat) (staged : Bool) (s : State) : Out State :=
  match TabOps.find? s.links link with
  | none => .next s
  | some l =>
    match l.wire with
    | [] => .next s
    | m :: rest =>
      if !l.arrived m then .next s
      else .next (s.setLink link (
        if m.seq ≤ l.seen then { l with wire := rest }
        else if staged && m.seq == l.seen + 1 then { l with wire := rest, seen := m.seq }
        else { l with wire := rest, nacked := l.nacked ++ [(m, s.linkCycle l.src)] }))

/-- D2D_RETRY (R363): the oldest NACKed message goes again after 64 cycles, from the first edge of its path on, unless that
does not take it (R381). -/
def execD2dRetry (link : Nat) (s : State) : Out State :=
  match TabOps.find? s.links link with
  | none => .next s
  | some l =>
    match l.nacked with
    | [] => .next s
    | (m, t) :: rest =>
      if !s.edgeTakes l 0 m.flits || decide (s.linkCycle l.src < t + 64) then .next s
      else .next (s.setLink link { l with nacked := rest, wire := l.wire ++ [{ m with hop := 0 }] })

/-! ### CXL ports (R351, R377) -/

/-- The loads that a port has held for a number of cycles raise a cause at their own instruction, with nothing written. -/
def State.failHeld (s : State) (port : Nat) (cause : Word) (cycles : Wave → Nat) : State :=
  s.waves.foldl (fun s w =>
    w.2.live.foldl (fun s f =>
      match f.2.park with
      | .cxl p va =>
        if p = port ∧ cycles w.2 ≤ (s.cycleOf w.2 - f.2.since).toNat then s.raiseAt w.1 f.1 f.2.plen cause va false else s
      | _ => s) s) s

/-- The completion timeout of a port in cycles of a wave's core: its milliseconds at 1.75 GHz, or at 875 MHz in Twilight
service (R1, R377, R401). -/
def State.timeoutCycles (s : State) (port : Nat) (w : Wave) : Nat :=
  (s.port port).timeout * (if (s.die w.die).service == .twilight then 875000 else 1750000)

/-- The parts that an engine operation touches. -/
def Op.touches (o : Op) (s : State) : List Part :=
  match o.body with
  | .copy c => (c.elems s o).flatMap Elem.flat
  | .coll c =>
    partsOf (c.dests s o.route)
      ++ (if c.reads then
            partsOf ((List.range c.blockCount).flatMap
              (fun b => (List.range (c.len / 4)).map (c.sourceElem s o.route b)))
          else [])
  | .bank _ | .mma _ | .mzero _ => []

/-- The running engine operations that touch a port's window end with a CODE (R293). -/
def State.failOps (s : State) (port code : Nat) : State :=
  { s with ops := TabOps.mapVals (fun _ o =>
      if o.life == .running && (o.touches s).any (fun p => (cxlOf p.pa).any (fun x => x.1 == port)) then
        { o with fault := 16 + code }
      else o) s.ops }

/-- CXL_LINK_DOWN (R351): the kernel marks the window unavailable. -/
def execCxlLinkDown (port : Nat) (s : State) : Out State :=
  .next (((s.failOps port 5).failHeld port Cause.cxldown (fun _ => 0)).setPort port
    (fun p => { p with linkUp := false, available := false }))

/-- CXL_COMPLETION_TIMEOUT (R293, R351, R377): the loads that have waited for the port's timeout fail, and the operations
that touch its window. The kernel marks the window unavailable. A load that has waited for less is still held. -/
def execCxlCompletionTimeout (port : Nat) (s : State) : Out State :=
  .next (((s.failOps port 6).failHeld port Cause.cxltimeout (s.timeoutCycles port)).setPort port
    (fun p => { p with available := false }))

/-- A size that an expander's decoder range can have (R200). -/
def expanderSize (n : Nat) : Bool := n % 2 ^ 28 == 0 && decide (2 ^ 28 ≤ n ∧ n ≤ 2 ^ 40)

/-- The module's ports serve: Dawn has unlocked the resident kernel, and is not in recovery (R397, R399; log 70). -/
def State.portsUp (s : State) : Bool := s.dawn.running && !s.dawn.recovery && decide (2 ≤ s.dawn.stage)

/-- CXL_PORT_ENUMERATION (R200, R377). -/
def execCxlPortEnumeration (port size : Nat) (s : State) : Out State :=
  if !s.portsUp || (s.port port).enumerated || (s.port port).fenced || !expanderSize size then .next s
  else .next (s.setPort port (fun p => { p with enumerated := true, size := size, available := true }))

/-- CXL_WINDOW_REMAP (R351): an unavailable window is given another expander and is available again. -/
def execCxlWindowRemap (port size : Nat) (s : State) : Out State :=
  let p := s.port port
  if !p.enumerated || p.available || p.fenced || !expanderSize size then .next s
  else .next (s.setPort port (fun p => { p with size := size, linkUp := true, available := true }))

/-! ### The host and other modules (R378 to R380) -/

/-- The number under which the Ethernet ports hold their windows. -/
def etherFn : Nat := 100

/-- A range lies in the windows registered with a PCIe function or with the Ethernet ports, and has a home (R380). -/
def State.inWindows (s : State) (fn pa n : Nat) : Bool :=
  (List.range n).all (fun i => s.windows.any (fun w => w.fn == fn && w.index == (pa + i) / 2 ^ 21)
    && s.homeState (pa + i) == .ok)

/-- The physical address at an offset of a function's aperture of 64 GiB: that of the window which the kernel put there
(R378, R380; log 70). -/
def State.aperture (s : State) (fn off : Nat) : Option Nat :=
  if 2 ^ 36 ≤ off then none
  else (s.windows.find? (fun w => w.fn == fn && w.slot == off / 2 ^ 21)).map (fun w => w.index * 2 ^ 21 + off % 2 ^ 21)

/-- The pieces of an access from an offset of an aperture, one window each: physical address and length; none where a
part of it lies in no window. -/
def State.apertureParts (s : State) (fn : Nat) : Nat → Nat → Nat → Option (List (Nat × Nat))
  | _, 0, _ => some []
  | off, n + 1, fuel + 1 =>
    let k := min (n + 1) (2 ^ 21 - off % 2 ^ 21)
    match s.aperture fn off, s.apertureParts fn (off + k) (n + 1 - k) fuel with
    | some pa, some ps => some ((pa, k) :: ps)
    | _, _ => none
  | _, _ + 1, 0 => none

/-- The bytes that an outside reader gets; of a line that is uncorrectable they are free (log 5). -/
def State.outsideBytes (s : State) (pa n : Nat) : List Byte :=
  (List.range n).map (fun i =>
    if s.checkLine ((pa + i) / 128) ((pa + i) % 128) 1 (s.lineGrade ((pa + i) / 128)) != .good then
      (Config.freeWord (Nat.pair s.free (pa + i))).extractLsb' 0 8
    else s.homeByte (pa + i))

/-- The read of some bytes of one line for an outside party, at its home, with the record of a failure (R196 to R199, R259,
R261, R269). -/
def State.outsideLine (s : State) (line off n : Nat) : State := s.unitRead (s.pageCode line).vd line off n

/-- An outside read: what it returned stands in the state. -/
def State.outsideRead (s : State) (pa n : Nat) : State :=
  let bs := s.outsideBytes pa n
  let s := (splitLines pa bs (n + 1)).foldl (fun s c => s.outsideLine c.1 c.2.1 c.2.2.length) s
  { s with
    hostData := bs
    free := s.free + 1 }

/-- The pieces of an access to BAR2 of a function that it may make: each has a home (R200, R378). -/
def State.barParts (s : State) (fn off n : Nat) : Option (List (Nat × Nat)) :=
  (s.apertureParts fn off n (n + 1)).filter (fun ps => decide (fn < 17) && ps.all (fun p => s.inWindows fn p.1 p.2))

/-- A read through BAR2: its pieces in order. -/
def State.barRead (s : State) : List (Nat × Nat) → State
  | [] => { s with hostData := [] }
  | p :: ps =>
    let t := s.outsideRead p.1 p.2
    let u := t.barRead ps
    { u with hostData := t.hostData ++ u.hostData }

/-- A write through BAR2: its pieces in order. -/
def State.barWrite (s : State) (bs : List Byte) : List (Nat × Nat) → State
  | [] => s
  | p :: ps => (s.homeWrite p.1 (bs.take p.2) true).barWrite (bs.drop p.2) ps

/-- An 8-byte atomic of another module, performed at the home; it returns the old word (R379). That of an uncorrectable
line is performed nowhere (R259). -/
def State.remoteAtomic (s : State) (pa : Nat) (f : Word → Word) : State :=
  if pa % 8 = 0 && s.inWindows etherFn pa 8 then
    let old := BitVec.ofNat 64 (leValue (s.outsideBytes pa 8))
    if s.checkLine (pa / 128) (pa % 128) 8 (s.lineGrade (pa / 128)) = .good then
      (s.outsideRead pa 8).homeWriteWord pa (f old)
    else s.outsideRead pa 8
  else s

/-- A request arrives through an Ethernet port that is there, not fenced, and out of reset (R397, R405). -/
def State.etherUp (s : State) (port : Nat) : Bool :=
  s.portsUp && decide (port < 8) && !s.dawn.fencedEth.contains port

/-- ROCE_REQUEST (R379): a SEND stands with the kernel until a socket's owner receives it (R348). -/
def execRoceRequest (place : RocePlace) (req : RoceRequest) (s : State) : Out State :=
  let pa := place.pa
  if !s.etherUp place.port then .next s
  else match req with
  | .send socket bs => .next { s with inbox := s.inbox ++ [(socket, bs)] }
  | .write bs => if s.inWindows etherFn pa bs.length then .next (s.homeWrite pa bs true) else .next s
  | .read n => if s.inWindows etherFn pa n then .next (s.outsideRead pa n) else .next s
  | .fetchAdd v => .next (s.remoteAtomic pa (· + v))
  | .cas compare swap => .next (s.remoteAtomic pa (fun u => if u = compare then swap else u))

end Sys2Proof.Machine
end

