-- ==== Sys2Proof/Machine/Compass.lean ====
section
/-! DEFINITION. Compass policies (R392 to R394): the instructions of a run, its candidates, and what its result does. -/

namespace Sys2Proof.Machine

/-! ### Loaded policies and runs -/

/-- The key of a policy. -/
def polKey (vd pol : Nat) : Nat := vd * 256 + pol

/-- The policy of a device under an identifier. -/
def State.policy (s : State) (vd pol : Nat) : Option Policy := TabOps.find? s.policies (polKey vd pol)

/-- A policy fault of a device counted (R393, R394). -/
def State.policyFault (s : State) (vd : Nat) : State :=
  match TabOps.find? s.vds vd with
  | some v => { s with vds := TabOps.put s.vds vd { v with faults := v.faults + 1 } }
  | none => s

/-- A register of a run; C0 reads as 0 (R392). -/
def PolicyRun.c (r : PolicyRun) (i : BitVec 4) : Word := if i = 0 then 0 else r.regs.getD i.toNat 0

/-- A register written; a write to C0 is discarded (R392). -/
def PolicyRun.setC (r : PolicyRun) (i : BitVec 4) (v : Word) : PolicyRun :=
  if i = 0 then r else { r with regs := setAt r.regs i.toNat v }

/-- The run at a position; reaching the loop end begins the next run of a LOOPN body (R392, R393). -/
def PolicyRun.goto (r : PolicyRun) (pos : Nat) : PolicyRun :=
  match r.loop with
  | some (first, last, left) =>
    if pos = last then
      if left = 0 then { r with pos := pos, loop := none } else { r with pos := first, loop := some (first, last, left - 1) }
    else { r with pos := pos }
  | none => { r with pos := pos }

/-! ### The view of a run (R392, R394) -/

/-- The commands of a queue that are pending: HEAD to TAIL - 1 (R385). -/
def Queue.pending (x : Queue) : Nat := (x.tail - x.head).toNat

/-- The cycle at which the oldest pending command was written: its doorbell's. -/
def Queue.stamp (x : Queue) : Nat :=
  ((x.stamps.find? (fun t => decide (0 < (t.1 - x.head).toNat ∧ (t.1 - x.head).toNat < 2 ^ 31))).map Prod.snd).getD 0

/-- Words of a queue's ring entry, read through the device's translation; none where that fails (R386, R387). -/
def State.ringEntry (s : State) (x : Queue) (n : BitVec 32) : Option (List Word) :=
  let at' := x.ring + BitVec.ofNat 64 (64 * (n.toNat % 2 ^ (x.logn + 4)))
  match s.translate (ioDie x.vd) x.vd at' .load with
  | .ok (_, pa) => some (wordsOf (s.homeBytes pa 64) 8)
  | .error _ => none

/-- Words at a virtual address of a device, each read where it is mapped; none where one is not. -/
def State.vaWords (s : State) (vd : Nat) (va : Word) (n : Nat) : Option (List Word) :=
  (List.range n).mapM (fun i =>
    match s.translate (ioDie vd) vd (va + BitVec.ofNat 64 (8 * i)) .load with
    | .ok (_, pa) => some (s.homeWord pa)
    | .error _ => none)

/-- The teams of the grid at the head of a queue that are not placed: of a running launch what is left, of a launch
that has not started all of its packet (R392). -/
def State.headTeams (s : State) (x : Queue) : Nat :=
  match x.running with
  | .launch g _ :: _ =>
    (match TabOps.find? s.grids g with
     | some g => g.packet.teams - min g.packet.teams (g.nextNb * g.packet.map.length)
     | none => 0)
  | _ :: _ => 0
  | [] =>
    match s.ringEntry x x.head with
    | some ws => if bits (ws.getD 0 0) 63 56 = 1 then
        ((s.vaWords x.vd (ws.getD 1 0) 16).map (fun ps => (Packet.ofWords ps).teams)).getD 0 else 0
    | none => 0

/-- A queue put into a list ordered by the age of its head command. -/
def insertAge (x : Nat × Queue) : List (Nat × Queue) → List (Nat × Queue)
  | [] => [x]
  | y :: ys => if x.2.stamp < y.2.stamp then x :: y :: ys else y :: insertAge x ys

/-- The candidates of a policy: the active queues of its device and identifier that have pending commands, oldest
head command first, at most 64 (R394). -/
def State.candidates (s : State) (vd pol : Nat) : List (Nat × Queue) :=
  ((s.queues.filter (fun q => q.2.state == 1 && q.2.vd == vd && q.2.policy == pol && decide (q.2.pending ≠ 0))).foldl
    (fun l q => insertAge q l) []).take 64

/-- The fields of a candidate (R392). -/
def State.candidate (s : State) (q : Nat × Queue) (i : Nat) : Candidate :=
  [BitVec.ofNat 64 q.1, BitVec.ofNat 64 q.2.prio, BitVec.ofNat 64 q.2.pending,
   BitVec.ofNat 64 ((s.cpCycle - q.2.stamp) / 1024), q.2.gceil.zeroExtend 64, BitVec.ofNat 64 (s.headTeams q.2),
   q.2.head.zeroExtend 64, BitVec.ofNat 64 i]

/-- The kind of an event (R392). -/
def PolicyEvent.kind : PolicyEvent → Nat
  | .enqueue => 0
  | .pick _ => 1
  | .sliceEnd _ => 2

/-- The die that an event concerns; 0 where the event concerns none (log 7). -/
def State.eventDie (s : State) : PolicyEvent → Nat
  | .enqueue => 0
  | .pick d => d
  | .sliceEnd g => ((s.nbsOf g).head?.map (fun n => n.2.die)).getD 0

/-- A run as it begins: every register 0 (R392). -/
def State.newRun (s : State) (c : PolicyCall) : PolicyRun :=
  let cs := s.candidates c.vd c.pol
  { program := ((s.policy c.vd c.pol).map (fun p => p.program)).getD [],
    vd := c.vd, pol := c.pol, event := c.event, pos := 0, regs := List.replicate 16 0, loop := none, steps := 0,
    view := cs.zipIdx.map (fun x => s.candidate x.1 x.2),
    evf := [BitVec.ofNat 64 c.event.kind, BitVec.ofNat 64 cs.length, BitVec.ofNat 64 c.queue,
            BitVec.ofNat 64 (s.eventDie c.event), c.held, c.clock] }

/-- An event for a policy: its run begins, or waits for the runs before it; without a loaded policy there is none
(R394). -/
def State.callPolicy (s : State) (c : PolicyCall) : State :=
  if (s.policy c.vd c.pol).isNone then s
  else if s.compass.isSome then { s with polCalls := s.polCalls ++ [c] }
  else { s with compass := some (s.newRun c) }

/-! ### The result of a run (R394) -/

/-- A grid asked to drain: it places no new team, and DRAIN is set in its waves (R352). -/
def State.drainGrid (s : State) (gid : Nat) : State :=
  let s := s.modGrid gid (fun g => { g with drain := true })
  { s with waves := TabOps.mapVals (fun _ w => if w.grid = gid then { w with drain := true } else w) s.waves }

/-- The queue is among the candidates of a run. -/
def PolicyRun.shows (r : PolicyRun) (q : Word) : Bool := r.view.any (fun c => c.headD 0 == q)

/-- What the result of a run does: nothing at an enqueue; at a pick the queue is served next; at the end of a time
slice its own queue goes on and any other result drains the grid. A queue outside the candidates, the running one too,
counts as NONE and as a policy fault (R394). -/
def State.runResult (s : State) (r : PolicyRun) (q : Option Word) : State :=
  match r.event, q with
  | .enqueue, _ => s
  | .pick _, some q =>
    if r.shows q then
      { s with queues := TabOps.mapVals (fun i x => if i = q.toNat then { x with picked := true } else x) s.queues }
    else s.policyFault r.vd
  | .pick _, none => s
  | .sliceEnd g, some q =>
    if !r.shows q then (s.policyFault r.vd).drainGrid g
    else if q = r.evf.getD 2 0 then s
    else s.drainGrid g
  | .sliceEnd g, none => s.drainGrid g

/-- The end of a run; the next event that waits begins its own. -/
def State.endRun (s : State) (r : PolicyRun) (q : Option Word) : State :=
  let s := ({ s with compass := none } : State).runResult r q
  match s.polCalls with
  | [] => s
  | c :: rest => ({ s with polCalls := rest } : State).callPolicy c

/-- A run after a step: past its last instruction it returns NONE (R393). -/
def State.putRun (s : State) (r : PolicyRun) : State :=
  if r.program.length ≤ r.pos then s.endRun r none else { s with compass := some r }

/-- The meaning of a Compass instruction: the 4,097th step of a run stops it with NONE and a policy fault (R393). -/
def withRun (s : State) (k : PolicyRun → State) : Out State :=
  match s.compass with
  | none => .fault .noPolicyRun
  | some r =>
    if Config.policySteps ≤ r.steps then .next ((s.policyFault r.vd).endRun r none)
    else .next (k { r with steps := r.steps + 1 })

/-- A Compass instruction that writes a register and goes on. -/
def compassOp (s : State) (d : BitVec 4) (f : PolicyRun → Word) : Out State :=
  withRun s fun r => s.putRun ((r.setC d (f r)).goto (r.pos + 1))

/-- A Compass branch: to k ahead, or to the next instruction. -/
def compassBranch (s : State) (k : BitVec 14) (cond : PolicyRun → Bool) : Out State :=
  withRun s fun r => s.putRun (r.goto (if cond r then ((r.pos : Int) + k.toInt).toNat else r.pos + 1))

/-! ### The instructions (R392) -/

/-- NOP (R392). -/
def execCNop (s : State) : Out State := withRun s fun r => s.putRun (r.goto (r.pos + 1))
/-- LDI (R392). -/
def execCLdi (d : BitVec 4) (i : BitVec 14) (s : State) : Out State := compassOp s d (fun _ => i.signExtend 64)
/-- LUI (R392). -/
def execCLui (d : BitVec 4) (i : BitVec 14) (s : State) : Out State := compassOp s d (fun _ => i.signExtend 64 <<< 14)
/-- ADD (R392). -/
def execCAdd (d a b : BitVec 4) (s : State) : Out State := compassOp s d (fun r => r.c a + r.c b)
/-- SUB (R392). -/
def execCSub (d a b : BitVec 4) (s : State) : Out State := compassOp s d (fun r => r.c a - r.c b)
/-- MUL (R392). -/
def execCMul (d a b : BitVec 4) (s : State) : Out State := compassOp s d (fun r => r.c a * r.c b)
/-- AND (R392). -/
def execCAnd (d a b : BitVec 4) (s : State) : Out State := compassOp s d (fun r => r.c a &&& r.c b)
/-- OR (R392). -/
def execCOr (d a b : BitVec 4) (s : State) : Out State := compassOp s d (fun r => r.c a ||| r.c b)
/-- XOR (R392). -/
def execCXor (d a b : BitVec 4) (s : State) : Out State := compassOp s d (fun r => r.c a ^^^ r.c b)
/-- SHL (R392). -/
def execCShl (d a b : BitVec 4) (s : State) : Out State := compassOp s d (fun r => r.c a <<< bits (r.c b) 5 0)
/-- SHR (R392). -/
def execCShr (d a b : BitVec 4) (s : State) : Out State := compassOp s d (fun r => r.c a >>> bits (r.c b) 5 0)
/-- MIN (R392). -/
def execCMin (d a b : BitVec 4) (s : State) : Out State :=
  compassOp s d (fun r => if (r.c b).slt (r.c a) then r.c b else r.c a)
/-- MAX (R392). -/
def execCMax (d a b : BitVec 4) (s : State) : Out State :=
  compassOp s d (fun r => if (r.c a).slt (r.c b) then r.c b else r.c a)
/-- SLT (R392). -/
def execCSlt (d a b : BitVec 4) (s : State) : Out State :=
  compassOp s d (fun r => if (r.c a).slt (r.c b) then 1 else 0)
/-- ADDI (R392). -/
def execCAddi (d a : BitVec 4) (i : BitVec 14) (s : State) : Out State :=
  compassOp s d (fun r => r.c a + i.signExtend 64)
/-- SEL (R392). -/
def execCSel (d a b : BitVec 4) (s : State) : Out State :=
  compassOp s d (fun r => if r.c d ≠ 0 then r.c a else r.c b)
/-- BEQ (R392). -/
def execCBeq (a b : BitVec 4) (k : BitVec 14) (s : State) : Out State := compassBranch s k (fun r => r.c a == r.c b)
/-- BNE (R392). -/
def execCBne (a b : BitVec 4) (k : BitVec 14) (s : State) : Out State := compassBranch s k (fun r => r.c a != r.c b)
/-- BLT (R392). -/
def execCBlt (a b : BitVec 4) (k : BitVec 14) (s : State) : Out State :=
  compassBranch s k (fun r => (r.c a).slt (r.c b))
/-- BGE (R392). -/
def execCBge (a b : BitVec 4) (k : BitVec 14) (s : State) : Out State :=
  compassBranch s k (fun r => !(r.c a).slt (r.c b))
/-- JMP (R392). -/
def execCJmp (k : BitVec 14) (s : State) : Out State := compassBranch s k (fun _ => true)

/-- LOOPN (R392): the next L instructions run n + 1 times for the field n. -/
def execCLoopn (n : BitVec 6) (l : BitVec 8) (s : State) : Out State :=
  withRun s fun r =>
    if l = 0 then s.putRun (r.goto (r.pos + 1))
    else s.putRun { r with
      pos := r.pos + 1
      loop := some (r.pos + 1, r.pos + 1 + l.toNat, n.toNat) }

/-- LDQ (R392): a field of the candidate whose index is in register a. -/
def execCLdq (d a : BitVec 4) (f : BitVec 14) (s : State) : Out State :=
  compassOp s d (fun r => (r.view.getD (r.c a).toNat []).getD f.toNat 0)
/-- LDE (R392): a field of the event. -/
def execCLde (d : BitVec 4) (f : BitVec 14) (s : State) : Out State := compassOp s d (fun r => r.evf.getD f.toNat 0)

/-- The persistent words of a run's policy. -/
def State.persist (s : State) (r : PolicyRun) : List Word := ((s.policy r.vd r.pol).map (fun p => p.persist)).getD []

/-- LDS (R392). -/
def execCLds (d : BitVec 4) (k : BitVec 14) (s : State) : Out State :=
  compassOp s d (fun r => (s.persist r).getD k.toNat 0)
/-- STS (R392). -/
def execCSts (a : BitVec 4) (k : BitVec 14) (s : State) : Out State :=
  withRun s fun r =>
    let ps := TabOps.mapVals (fun i p =>
      if i = polKey r.vd r.pol then { p with persist := setAt p.persist k.toNat (r.c a) } else p) s.policies
    ({ s with policies := ps } : State).putRun (r.goto (r.pos + 1))
/-- RETQ (R392). -/
def execCRetq (a : BitVec 4) (s : State) : Out State := withRun s fun r => s.endRun r (some (r.c a))
/-- RETN (R392). -/
def execCRetn (s : State) : Out State := withRun s fun r => s.endRun r none

/-! ### Picks and time slices (R394) -/

/-- A die has room: it may place teams, and a core of it that is not fenced has a free wave slot (R394; log 71). -/
def State.dieRoom (s : State) (die : Nat) : Bool :=
  s.diePlaces die && (List.range 48).any (fun c =>
    !(s.core (coreKey die c)).fenced && (List.range 4).any (fun k => decide (s.slotsTaken (coreKey die c) k < 16)))

/-- A queue has a command that has not started and that no pick serves yet. -/
def Queue.waiting (x : Queue) : Bool := x.state == 1 && x.next != x.tail && !x.picked && !x.closing

/-- The loaded policies of a device, by ascending identifier, that have a queue waiting. -/
def State.pickable (s : State) (vd : Nat) : List Nat :=
  (s.policies.filter (fun p => p.1 / 256 == vd
    && s.queues.any (fun q => q.2.vd == vd && q.2.policy == p.1 % 256 && q.2.waiting))).map (fun p => p.1 % 256)

/-- A device's commands may run on a die; one without dies of its own is taken for any. -/
def Vd.mayUse (v : Vd) (die : Nat) : Bool := v.dies == 0 || v.dies.getLsbD die

/-- The devices that may use a die and have a policy to pick for it, those after a given one first. -/
def State.pickVds (s : State) (die after : Nat) : List Nat :=
  let vs := (List.range 16).filter (fun v => (s.vd v).mayUse die && !(s.pickable v).isEmpty)
  vs.filter (fun v => decide (after < v)) ++ vs.filter (fun v => decide (v ≤ after))

/-- The first turn of the next device. -/
def State.nextDevice (s : State) (die after : Nat) : Option PickTurn :=
  match s.pickVds die after with
  | [] => none
  | v :: _ => some { vd := v, pol := (s.pickable v).head?, left := max 1 (s.vd v).weight }

/-- The turn after the last one at a die: the device's next policy by ascending identifier; then its first one again, as
often as its WEIGHT says; then the next device (R394; log 71). -/
def State.nextTurnOf (s : State) (die : Nat) : Option PickTurn :=
  let t := s.pickTurn
  let own := if (s.vd t.vd).mayUse die then s.pickable t.vd else []
  match own.find? (fun p => t.pol.all (fun q => decide (q < p))), own with
  | some p, _ => if t.left = 0 then s.nextDevice die t.vd else some { t with pol := some p }
  | none, p :: _ => if 1 < t.left then some { t with pol := some p, left := t.left - 1 } else s.nextDevice die t.vd
  | none, [] => s.nextDevice die t.vd

/-- The pick that comes next: the lowest die with room that has had none in this cycle of the command processors
(R394, R396; log 71). -/
def State.nextPick (s : State) : Option (Nat × PickTurn) :=
  (List.range 24).findSome? (fun die =>
    if s.dieRoom die && !s.picks.contains die then (s.nextTurnOf die).map (fun t => (die, t)) else none)

/-- The clock as an event of the command processors reads it: it never goes back (R348, R392). -/
def State.clockTo (s : State) (ns : Word) : State :=
  { s with clock := if s.clock.toNat < ns.toNat then ns else s.clock }

/-- POLICY_PICK (R394): a die has room, and the policy whose turn it is runs for it. -/
def execPolicyPick (vd pol die : Nat) (clock : Word) (s : State) : Out State :=
  match s.nextPick with
  | some (d, t) =>
    if d = die ∧ t.vd = vd ∧ t.pol = some pol then
      let s := s.clockTo clock
      .next (({ s with pickTurn := t, picks := die :: s.picks } : State).callPolicy
        { vd := vd, pol := pol, event := .pick die, queue := 0, held := 0, clock := s.clock })
    else .next s
  | none => .next s

/-- TIME_SLICE_END (R352, R394): the policy of the grid's queue decides; without a loaded policy the grid drains. -/
def execTimeSliceEnd (gid : Nat) (held clock : Word) (s : State) : Out State :=
  match TabOps.find? s.grids gid with
  | none => .next s
  | some g =>
    if g.life != .running || g.drain then .next s
    else match g.queue with
      | none => .next (s.drainGrid gid)
      | some q =>
        if (s.policy g.vd (s.queue q).policy).isNone then .next (s.drainGrid gid)
        else
          let s := s.clockTo clock
          .next (s.callPolicy { vd := g.vd, pol := (s.queue q).policy, event := .sliceEnd gid, queue := q,
                                held := held, clock := s.clock })

end Sys2Proof.Machine
end

