-- ==== Sys2Proof/Machine/Sha.lean ====
section
/-! DEFINITION. SHA-512 and the check of an ECDSA signature over P-521, which R398 names: their constants and steps are
those of the published standards FIPS 180-4 and FIPS 186-5 (log 8). -/

namespace Sys2Proof.Machine

/-! ### SHA-512 -/

/-- The largest number whose `k`-th power is at most `n`, found from its bit `i - 1` down above the bits `r`. -/
def rootBits (k n : Nat) : Nat → Nat → Nat
  | 0, r => r
  | i + 1, r => rootBits k n i (if (r + 2 ^ i) ^ k ≤ n then r + 2 ^ i else r)

/-- The first 64 bits after the point of the `k`-th root of a prime below 410, whose whole part has at most five bits. -/
def rootFraction (k q : Nat) : BitVec 64 := BitVec.ofNat 64 (rootBits k (q * 2 ^ (64 * k)) 69 0)

/-- The first 80 primes: no divisor from 2 to 20 but itself. -/
def shaPrimes : List Nat :=
  ((List.range 410).drop 2).filter fun q => (List.range 19).all fun d => q % (d + 2) != 0 || q == d + 2

/-- The round constants: what cube roots have after the point. -/
def shaK : List (BitVec 64) := shaPrimes.map (rootFraction 3)

/-- The hash value before the first block: what square roots have after the point. -/
def shaStart : List (BitVec 64) := (shaPrimes.take 8).map (rootFraction 2)

/-- A message padded to a multiple of 128 bytes: a bit 1, zeros, its length in bits as 16 bytes, most significant
first. -/
def shaPad (bs : List Byte) : List Byte :=
  bs ++ [0x80] ++ List.replicate ((239 - bs.length % 128) % 128) 0 ++ (leBytes (8 * bs.length) 16).reverse

/-- A big-endian number. -/
def beValue (bs : List Byte) : Nat := leValue bs.reverse

/-- A word turned right by several amounts, the results added without carry. -/
def turned (rs : List Nat) (x : BitVec 64) : BitVec 64 := rs.foldl (fun acc r => acc ^^^ x.rotateRight r) 0

/-- The next word of the message schedule, from the last 16, newest first. -/
def shaNext (ws : List (BitVec 64)) : BitVec 64 :=
  let far := ws.getD 14 0
  let near := ws.getD 1 0
  ([turned [1, 8] far ^^^ far >>> 7, turned [19, 61] near ^^^ near >>> 6, ws.getD 6 0].foldl (· + ·) (ws.getD 15 0))

/-- The bits of one word where a third has 1, of the other where it has 0. -/
def chosen (m x y : BitVec 64) : BitVec 64 := y ^^^ (m &&& (x ^^^ y))

/-- The bits that two of three words have. -/
def agreed (x y z : BitVec 64) : BitVec 64 := x &&& y ||| z &&& (x ||| y)

/-- One round on the eight working words, with its constant and schedule word. -/
def shaRound (v : List (BitVec 64)) (k w : BitVec 64) : List (BitVec 64) :=
  let x := fun i => v.getD i 0
  let t := x 7 + turned [14, 18, 41] (x 4) + chosen (x 4) (x 5) (x 6) + (k + w)
  (t + (turned [28, 34, 39] (x 0) + agreed (x 0) (x 1) (x 2))) :: (v.take 3 ++ (x 3 + t) :: (v.drop 4).take 3)

/-- The rounds of a block: the schedule's last 16 words, oldest last, its words not used yet first. -/
def shaRounds : List (BitVec 64) → List (BitVec 64) → List (BitVec 64) → List (BitVec 64) → List (BitVec 64)
  | [], _, _, v => v
  | k :: ks, w :: ws, last, v => shaRounds ks ws (w :: last) (shaRound v k w)
  | k :: ks, [], last, v => shaRounds ks [] ((shaNext last :: last).take 16) (shaRound v k (shaNext last))

/-- The hash value after a block of 128 bytes. -/
def shaBlock (hs : List (BitVec 64)) (bs : List Byte) : List (BitVec 64) :=
  let ws := (List.range 16).map (fun i => BitVec.ofNat 64 (beValue ((bs.drop (8 * i)).take 8)))
  List.zipWith (· + ·) hs (shaRounds shaK ws [] hs)

/-- The hash value after n blocks. -/
def shaBlocks (bs : List Byte) : Nat → List (BitVec 64)
  | 0 => shaStart
  | n + 1 => shaBlock (shaBlocks bs n) ((bs.drop (128 * n)).take 128)

/-- SHA-512 of a byte string (R398, R403; log 8). -/
def sha512 (bs : List Byte) : List Byte :=
  let m := shaPad bs
  (shaBlocks m (m.length / 128)).flatMap (fun w => (leBytes w.toNat 8).reverse)

/-! ### P-521 -/

namespace P521

/-- The field's prime, and the order of the base point. -/
def p : Nat := 2 ^ 521 - 1
def n : Nat :=
  0x01FFFFFFFFFFFFFFFFFFFFFFFFFFFFFFFFFFFFFFFFFFFFFFFFFFFFFFFFFFFFFFFFFA51868783BF2F966B7FCC0148F709A5D03BB5C9B8899C47AEBB6FB71E91386409

/-- The coefficient b of y² = x³ − 3x + b. -/
def b : Nat :=
  0x0051953EB9618E1C9A1F929A21A0B68540EEA2DA725B99B315F3B8B489918EF109E156193951EC7E937B1652C0BD3BB1BF073573DF883D2C34F1EF451FD46B503F00

/-- The base point. -/
def gx : Nat :=
  0x00C6858E06B70404E9CD9E3ECB662395B4429C648139053FB521F828AF606B4D3DBAA14B5E77EFE75928FE1DC127A2FFA8DE3348B3C1856A429BF97E7E31C2E5BD66
def gy : Nat :=
  0x011839296A789A3BC0045C8A5FB42C7D1BD998F54449579B446817AFBD17273E662C97EE72995EF42640C550B9013FAD0761353C7086A272C24088BE94769FD16650

/-- A power modulo m, its exponent's bits from the lowest, in at most `fuel` of them. -/
def powMod (m : Nat) : Nat → Nat → Nat → Nat → Nat
  | 0, _, _, r => r
  | fuel + 1, x, e, r => powMod m fuel (x * x % m) (e / 2) (if e % 2 = 1 then r * x % m else r)

/-- The inverse modulo a prime. -/
def inv (m x : Nat) : Nat := powMod m 521 (x % m) (m - 2) 1

/-- A point of the curve in Jacobian coordinates; z = 0 is the point at infinity. -/
structure Point where
  x : Nat
  y : Nat
  z : Nat
  deriving DecidableEq, Repr

/-- The difference of two field elements. -/
def sub (u v : Nat) : Nat := (u + (p - v % p)) % p

/-- A point doubled. -/
def double (a : Point) : Point :=
  if a.z = 0 ∨ a.y = 0 then ⟨1, 1, 0⟩
  else
    let zz := a.z * a.z % p
    let yy := a.y * a.y % p
    let s := 4 * a.x * yy % p
    let m := 3 * (sub a.x zz * (a.x + zz)) % p
    let x := sub (m * m) (2 * s)
    ⟨x, sub (m * sub s x) (8 * yy * yy), 2 * a.y * a.z % p⟩

/-- The sum of two points. -/
def add (a c : Point) : Point :=
  if a.z = 0 then c
  else if c.z = 0 then a
  else
    let za := a.z * a.z % p
    let zc := c.z * c.z % p
    let u := a.x * zc % p
    let s := a.y * zc * c.z % p
    let h := sub (c.x * za) u
    let r := sub (c.y * za * a.z) s
    if h = 0 then (if r = 0 then double a else ⟨1, 1, 0⟩)
    else
      let hh := h * h % p
      let hhh := h * hh % p
      let v := u * hh % p
      let x := sub (sub (r * r) hhh) (2 * v)
      ⟨x, sub (r * sub v x) (s * hhh), h * a.z * c.z % p⟩

/-- A multiple of a point added in: the bits of the factor from i down to 0, after the multiple `q` of those above. -/
def mul (k : Nat) (a : Point) : Nat → Point → Point
  | 0, q => if k % 2 = 1 then add (double q) a else double q
  | i + 1, q => mul k a i (if k / 2 ^ (i + 1) % 2 = 1 then add (double q) a else double q)

/-- A point that lies on the curve. -/
def onCurve (x y : Nat) : Bool := decide (x < p) && decide (y < p) && y * y % p == (x * x * x + (p - 3) * x + b) % p

end P521

/-- The check of an ECDSA signature over P-521: a key 0x04, x, y, a digest, and a signature r, s (R398; log 8). -/
def ecdsaVerify (key digest sig : List Byte) : Bool :=
  let x := beValue ((key.drop 1).take 66)
  let y := beValue ((key.drop 67).take 66)
  let r := beValue (sig.take 66)
  let s := beValue ((sig.drop 66).take 66)
  if key.headD 0 != 4 || !P521.onCurve x y || r == 0 || decide (P521.n ≤ r) || s == 0 || decide (P521.n ≤ s) then false
  else
    let w := P521.inv P521.n s
    let u1 := beValue digest * w % P521.n
    let u2 := r * w % P521.n
    let q := P521.add (P521.mul u1 ⟨P521.gx, P521.gy, 1⟩ 520 ⟨1, 1, 0⟩) (P521.mul u2 ⟨x, y, 1⟩ 520 ⟨1, 1, 0⟩)
    if q.z = 0 then false
    else
      let zi := P521.inv P521.p q.z
      q.x * (zi * zi % P521.p) % P521.p % P521.n == r

end Sys2Proof.Machine
end

