-- ==== Sys2Proof/Machine/Queues.lean ====
section
/-! DEFINITION. Queues (R382 to R390): doorbells, the commands of a ring, the privileged commands with the bind check and
the policy verifier (R384, R388, R393), and Retrace's log and replay (R403, R404). -/

namespace Sys2Proof.Machine

/-! ### Retrace's log (R403) -/

/-- The bytes at a virtual address of a device, each where it is mapped; an unmapped one reads as 0. -/
def State.vaBytes (s : State) (vd : Nat) (va : Word) (n : Nat) : List Byte :=
  (List.range n).map (fun i =>
    match s.translate (ioDie vd) vd (va + BitVec.ofNat 64 i) .load with
    | .ok (_, pa) => s.homeByte pa
    | .error _ => 0)

/-- The grade of the page at a virtual address of a device. -/
def State.vaGrade (s : State) (vd : Nat) (va : Word) : Grade :=
  match s.translate (ioDie vd) vd va .load with
  | .ok (l, _) => l.grade
  | .error _ => 0

/-- The address of a ring entry. -/
def Queue.entryVa (x : Queue) (n : BitVec 32) : Word := x.ring + BitVec.ofNat 64 (64 * (n.toNat % 2 ^ (x.logn + 4)))

/-- The entry's TYPE. -/
def entryType (ws : List Word) : Nat := bits (ws.getD 0 0) 63 56

/-- The entry of a command of a queue as it starts; that of a COPY or a COLL names its operation, which takes the next
number. -/
def State.logEntry (s : State) (q : Nat) (x : Queue) (command packet : List Word) (grids : List Nat) : LogEntry :=
  { queue := q, command := command, descG := s.vaGrade x.vd (x.entryVa x.next), packet := packet,
    inputs := (TabOps.get [] s.retrace.inputs q).map (fun i => (i.1, i.2, sha512 (s.vaBytes x.vd i.1 i.2))),
    grids := grids, op := if entryType command = 2 ∨ entryType command = 3 then some s.opNext else none,
    sysc := [], places := [] }

/-- RTQ enables the log of a queue. -/
def State.logged (s : State) (q : Nat) : Bool := s.retrace.rtq / 2 ^ q % 2 == 1

/-- The inputs of a queue read for their digests. -/
def State.inputReads (s : State) (q vd : Nat) : State :=
  (TabOps.get [] s.retrace.inputs q).foldl (fun s i => s.vaReads vd i.1 i.2) s

/-- A command of an enabled queue appended to the log (R403); an entry that no grid adds to goes to the ring at once. -/
def State.logCommand (s : State) (q : Nat) (x : Queue) (command packet : List Word) (grids : List Nat) : State :=
  if s.logged q then
    let e := s.logEntry q x command packet grids
    let s : State := { s with retrace := { s.retrace with log := s.retrace.log ++ [e] } }
    (if grids.isEmpty then s.ringLog e else s).inputReads q x.vd
  else s

/-! ### The start of a command (R386, R387) -/

/-- The words of an entry, beside word 0 and the status or operand in word 1, that its TYPE leaves reserved. -/
def reservedWords : Nat → List Nat
  | 1 => [2, 3, 4, 5, 6, 7]
  | 2 => [3]
  | 3 => [3]
  | 4 => [3, 4, 5, 6, 7]
  | 5 => [3, 4, 5, 6, 7]
  | 8 => [4, 5, 6, 7]
  | 9 => [4, 5, 6, 7]
  | 10 => [2, 4, 5, 6, 7]
  | 11 => [2, 4, 5, 6, 7]
  | _ => [4, 5, 6, 7]

/-- An entry is well formed: a TYPE of R386 or R388, its flags, its reserved fields and the alignment of its address. -/
def entryOk (ws : List Word) : Bool :=
  let w := fun i => ws.getD i 0
  let t := entryType ws
  let flags := bits (w 0) 55 48
  decide ((1 ≤ t ∧ t ≤ 5) ∨ (8 ≤ t ∧ t ≤ 12))
    && (if t = 1 ∨ t = 5 then decide (flags ≤ 1) else flags == 0)
    && (if t = 2 then bits (w 0) 45 0 == 0 && bits (w 0) 47 46 != 1 else bits (w 0) 47 0 == 0)
    && (reservedWords t).all (fun i => w i == 0)
    && (t != 2 || (bits (w 2) 63 5 == 0 && decide (bits (w 2) 4 0 < 24)))
    && (t != 3 || bits (w 2) 63 2 == 0)
    && (t != 12 || (bits (w 3) 59 56 == 0 && bits (w 3) 47 9 == 0))
    && (if t = 1 then true else if t ≤ 5 then bits (w 1) 2 0 == 0 else bits (w 1) 1 0 == 0)

/-- The commands of a queue that are not over. -/
def Queue.busy (x : Queue) : List Running := x.running.filter (· != .over)

/-- A launch with EARLY may start: only the launch before it runs, and has placed its first neighbourhood (R390). -/
def State.earlyMay (s : State) (x : Queue) : Bool :=
  match x.running.getLast?, x.busy with
  | some (.launch g _), [.launch h _] =>
    g == h && (match TabOps.find? s.grids g with
      | some p => decide (1 ≤ p.nextNb)
      | none => false)
  | _, _ => false

/-- A queue may start its next command: it is active, no bind waits, an entry stands in its ring, its policy, where
one is loaded, has picked it (R384, R386, R394). -/
def State.mayStart (s : State) (x : Queue) : Bool :=
  x.state == 1 && !x.closing && x.next != x.tail && ((s.policy x.vd x.policy).isNone || x.picked)

/-- The next command of a queue, if it has the TYPE given and may start; an entry that cannot be read or is not well
formed puts the queue in error, and so does a privileged one outside VD 0 (R386, R387). `k` runs it. -/
def State.command (s : State) (q t : Nat) (k : Queue → List Word → State → State) : State :=
  let x := s.queue q
  if !s.mayStart x then s
  else match s.ringEntry x x.next with
    | none => if x.busy.isEmpty then (s.vaReads x.vd (x.entryVa x.next) 64).queueError q 8 else s
    | some ws =>
      let early := entryType ws == 1 && bit (ws.getD 0 0) 48
      if !(x.busy.isEmpty || (early && s.earlyMay x)) then s
      else if entryOk ws && entryType ws != t then s
      else
        let s := s.vaReads x.vd (x.entryVa x.next) 64
        if !entryOk ws then s.queueError q 1
        else if 8 ≤ t ∧ x.vd ≠ 0 then s.queueError q 7
        else k x ws s

/-- A command that has started: it stands among the running ones. -/
def State.started (s : State) (q : Nat) (r : Running) : State :=
  let x := s.queue q
  { s with queues := TabOps.put s.queues q { x with
      next := x.next + 1
      picked := false
      running := x.running ++ [r] } }

/-- A command that starts and completes at once. -/
def State.completed (s : State) (q : Nat) : State :=
  (s.started q .over).commandDone q (fun _ => false)

/-! ### LAUNCH (R389 to R391) -/

/-- A queue's grid, of a replay or not. -/
def State.queueGrid (s : State) (r : Option Nat) (q : Nat) (x : Queue) (p : Packet) (early : Option Nat) : Grid :=
  { s.newGrid r x.vd (Config.queueOwner q) p x.gceil with
    queue := some q
    early := early }

/-- The producer of an EARLY launch: the grid of the launch before it, if it still runs (R390). -/
def Queue.producer (x : Queue) : Option Nat :=
  match x.running.getLast? with
  | some (.launch g _) => some g
  | _ => none

/-- QUEUE_LAUNCH (R386, R389): the packet is checked, and its grid is with the dispatcher. -/
def execQueueLaunch (q : Nat) (s : State) : Out State :=
  .next (s.command q 1 fun x ws s =>
    (match s.vaWords x.vd (ws.getD 1 0) 16 with
    | none => s.queueError q 8
    | some ps =>
      if (ws.getD 1 0).extractLsb' 0 6 ≠ 0 ∨ !packetLegal ps true then s.queueError q 2
      else
        let early := if bit (ws.getD 0 0) 48 then x.producer else none
        let g := s.queueGrid none q x (Packet.ofWords ps) early
        let gid := s.opNext
        ((s.logCommand q x ws ps [gid]).addGrid g).started q (.launch gid early.isSome) : State).vaReads x.vd (ws.getD 1 0) 128)

/-! ### COPY and COLL -/

/-- The number of a copy operation in an entry (R386). -/
def entryCopy (ws : List Word) : CopyOp :=
  if bits (ws.getD 0 0) 47 46 = 2 then .reduce else if bits (ws.getD 0 0) 47 46 = 3 then .fill else .copy

/-- The copy command of an entry; a queue has no scratchpad (log 7). -/
def entryCmd (ws : List Word) (g : Grade) : Option CopyCmd :=
  (copyCmd (entryCopy ws) (ws.drop 4) g).filter (fun c => c.dspace == 0 && c.sspace == 0)

/-- An operation of a queue on an engine of a die, with execution grade 0 (R386). -/
def queueOp (q : Option Nat) (body : OpBody) (die vd : Nat) (cls : BitVec 2) : Op :=
  { body := body, wave := 0, grid := 0, team := 0, die := die, core := 0, vd := vd, sd := none, cls := cls, eg := 0,
    life := .queued, queue := q, fault := 0, issueDie := die }

/-- COPY (R386). -/
def execCopy (q : Nat) (s : State) : Out State :=
  .next (s.command q 2 fun x ws s =>
    match entryCmd ws (s.vaGrade x.vd (x.entryVa x.next)) with
    | none => s.queueError q 1
    | some c =>
      let id := s.opNext
      ((s.logCommand q x ws [] []).opStart (queueOp (some q) (.copy c) (bits (ws.getD 2 0) 4 0) x.vd 0)).started q
        (.op id (ws.getD 1 0)))

/-- The group that an entry names, as the command processor reads it. -/
def State.entryGroup (s : State) (x : Queue) (ws : List Word) : GroupRead :=
  s.groupRead (engineRoute (ioDie x.vd) x.vd) (bits (ws.getD 6 0) 63 56)

/-- The collective of an entry, for the queue's endpoint, of a replay or not: the command, the die of its engine, and the
error else. -/
def State.entryColl (s : State) (r : Option Nat) (q : Nat) (x : Queue) (ws : List Word) : Except Nat (CollCmd × Nat) :=
  let d := ws.drop 4
  let g := s.entryGroup x ws
  let op := bits (ws.getD 2 0) 1 0
  if g.causes ≠ 0 then .error 8
  else match rankOf g.ranks (fun e => endModule e == s.moduleNo && endHandle e == 0xFFF000 + q) with
    | none => .error 1
    | some k =>
      if !collOk op d g.ranks.length k then .error 1
      else .ok (s.collCmd r op d x.vd g k, endDie (g.ranks.getD k 0))

/-- COLL (R386). -/
def execColl (q : Nat) (s : State) : Out State :=
  .next (s.command q 3 fun x ws s =>
    (match s.entryColl none q x ws with
     | .error e => s.queueError q e
     | .ok (c, die) =>
       let id := s.opNext
       (((s.logCommand q x ws [] []).opStart (queueOp (some q) (.coll c) die x.vd 3)).collIssue none c die).started q
         (.op id (ws.getD 1 0)) : State).groupReads (ioDie x.vd) x.vd (s.entryGroup x ws))

/-! ### DEPWAIT and POST -/

/-- The word of a DEPWAIT, loaded at system scope; none where it does not translate. -/
def State.depWord (s : State) (vd : Nat) (va : Word) : Option Word :=
  match s.translate (ioDie vd) vd va .load with
  | .ok (_, pa) => some (s.homeWord pa)
  | .error _ => none

/-- DEPWAIT (R386). -/
def execDepwait (q : Nat) (s : State) : Out State :=
  .next (s.command q 4 fun x ws s =>
    (match s.depWord x.vd (ws.getD 1 0) with
    | none => s.queueError q 8
    | some u =>
      let s := s.logCommand q x ws [] []
      if (ws.getD 2 0).toNat ≤ u.toNat then s.completed q
       else s.started q (.depwait (ws.getD 1 0) (ws.getD 2 0)) : State).vaReads x.vd (ws.getD 1 0) 8)

/-- The word of a waiting DEPWAIT has reached its value. -/
def State.depMet (s : State) (vd : Nat) : Running → Bool
  | .depwait va v => (s.depWord vd va).any (fun u => decide (v.toNat ≤ u.toNat))
  | .launch _ _ | .op _ _ | .bind _ _ _ | .over => false

/-- The word of a waiting DEPWAIT does not translate any more. -/
def State.depLost (s : State) (vd : Nat) : Running → Bool
  | .depwait va _ => (s.depWord vd va).isNone
  | .launch _ _ | .op _ _ | .bind _ _ _ | .over => false

/-- What the reading of a waiting DEPWAIT's word leaves. -/
def State.depReads (s : State) (vd : Nat) : Running → State
  | .depwait va _ => s.vaReads vd va 8
  | .launch _ _ | .op _ _ | .bind _ _ _ | .over => s

/-- The word of a waiting DEPWAIT read again and found unmet: once in each cycle of the command processors (log 74). -/
def State.depPoll (s : State) (q : Nat) : State :=
  let x := s.queue q
  if x.polled = s.cpCycle ∨ x.running.all (fun r => match r with | .depwait _ _ => false | _ => true) then s
  else x.running.foldl (fun t r => t.depReads x.vd r)
    { s with queues := TabOps.put s.queues q { x with polled := s.cpCycle } }

/-- DEPWAIT_RECHECK (R386). -/
def execDepwaitRecheck (q : Nat) (s : State) : Out State :=
  let x := s.queue q
  if x.running.any (s.depMet x.vd) then
    .next ((x.running.filter (s.depMet x.vd)).foldl (fun t r => t.depReads x.vd r) (s.commandDone q (s.depMet x.vd)))
  else if x.running.any (s.depLost x.vd) then
    .next (((x.running.filter (s.depLost x.vd)).foldl (fun t r => t.depReads x.vd r)
      (s.commandDone q (s.depLost x.vd))).queueError q 8)
  else .next (s.depPoll q)

/-- A VEC names an interrupt of a device: one of the 64 vectors of its PCIe function, or, for a guest's device, one that
its node lists (R378, R383, R386, R395). -/
def State.vecOk (s : State) (vd v : Nat) : Bool :=
  decide (v < 64) && (((TabOps.find? s.nodes vd).bind Node.guest).all (fun l => l.contains v))

/-- The interrupt that a POST raises: VEC as it stands in the control block; a VEC that names none puts the queue in
error (R383, R386). -/
def State.postVec (s : State) (q : Nat) (x : Queue) : State :=
  (match s.depWord x.vd (x.qcb + 24) with
  | none => s.queueError q 8
  | some w =>
    if s.vecOk x.vd (bits w 7 0) then { s with interrupts := s.interrupts ++ [(x.vd, bits w 7 0)] }
     else s.queueError q 1 : State).vaReads x.vd (x.qcb + 24) 8

/-- A value stored for a device, or by a replay (R241); none where the address does not translate for a store. -/
def State.vaStore (s : State) (r : Option Nat) (vd : Nat) (va v : Word) (n : Nat) : Option State :=
  match s.translate (ioDie vd) vd va .store with
  | .ok (_, pa) => some ((s.keep (ioDie vd) vd va).homeStore r (Spot.of 0) pa (leBytes v.toNat n))
  | .error _ => none

/-- POST (R386): the writes of earlier commands are home already, a grid's by its retirement. -/
def execPost (q : Nat) (s : State) : Out State :=
  .next (s.command q 5 fun x ws s =>
    match (s.logCommand q x ws [] []).vaStore none x.vd (ws.getD 1 0) (ws.getD 2 0) 8 with
    | none => (s.keep (ioDie x.vd) x.vd (ws.getD 1 0)).queueError q 8
    | some s1 => if bit (ws.getD 0 0) 48 then (s1.completed q).postVec q x else s1.completed q)

/-! ### The privileged commands (R382, R384, R388, R393) -/

/-- The memory that a privileged command of a TYPE reads by its physical address has a home (R200, R388, R405). -/
def State.operandHomed (s : State) (t : Nat) (ws : List Word) : Bool :=
  let n := if t = 8 then 64 else if t = 12 then 4 * bits (ws.getD 3 0) 8 0 else 0
  (lineRanges (ws.getD 2 0).toNat n).all (fun x => s.homeState (128 * x.1) == .ok)

/-- A privileged command's status written to its address; an address that does not translate, or an operand without a home
(log 66), is ERR 8 of its queue, and the command does nothing (R387, R388). -/
def State.privileged (s : State) (q t : Nat) (k : Queue → List Word → State → State × Nat) : State :=
  s.command q t fun x ws s =>
    match s.translate (ioDie x.vd) x.vd (ws.getD 1 0) .store with
    | .error _ => (s.keep (ioDie x.vd) x.vd (ws.getD 1 0)).queueError q 8
    | .ok (_, pa) =>
      if !s.operandHomed t ws then (s.keep (ioDie x.vd) x.vd (ws.getD 1 0)).queueError q 8
      else
      let r := k x ws ((s.keep (ioDie x.vd) x.vd (ws.getD 1 0)).logCommand q x ws [] [])
      (r.1.homeWrite pa (leBytes r.2 4) true).completed q

/-- A VDSET descriptor is legal (R382). -/
def vdOk (w : Nat → Word) : Bool :=
  bits (w 0) 63 52 == 0 && bits (w 0) 20 0 == 0 && decide (1 ≤ bits (w 1) 63 48) && decide (1 ≤ bits (w 1) 31 28)
    && bits (w 1) 7 1 == 0 && bits (w 2) 11 0 == 0 && bits (w 3) 3 0 == 0 && bits (w 4) 11 4 == 0
    && bits (w 6) 63 24 == 0 && w 7 == 0

/-- The virtual device that a descriptor defines. -/
def vdOf (w : Nat → Word) : Vd :=
  { ptroot := bits (w 0) 51 21 * 2 ^ 21, depth := bits (w 1) 63 48, rate := bits (w 1) 47 32, weight := bits (w 1) 31 28,
    pinq := bits (w 1) 27 8, inj := bit (w 1) 0, checktab := (w 2).toNat, grouptab := w 3,
    errring := bits (w 4) 63 12 * 2 ^ 12, errlog := bits (w 4) 3 0, key := (w 5).extractLsb' 32 32,
    wdog := bits (w 5) 31 0, dies := (w 6).extractLsb' 0 24, faults := 0 }

/-- A device has bound queues. -/
def State.hasQueues (s : State) (v : Nat) : Bool := s.queues.any (fun q => q.2.vd == v && q.2.state != 0)

/-- A device redefined: one with bound queues keeps PTROOT and KEY (R382). -/
def State.vdDefine (s : State) (v : Nat) (d : Vd) : State :=
  let d := if s.hasQueues v then { d with
      ptroot := (s.vd v).ptroot
      key := (s.vd v).key
      faults := (s.vd v).faults } else d
  { s with vds := TabOps.put s.vds v d }

/-- What VDSET does, with its status (R382, R388). -/
def State.vdSet (s : State) (ws : List Word) : State × Nat :=
  let pa := (ws.getD 2 0).toNat
  let d := wordsOf (s.homeBytes pa 64) 8
  let v := (ws.getD 3 0).toNat
  if pa % 64 ≠ 0 ∨ 16 ≤ v ∨ !vdOk (fun i => d.getD i 0) then (s, 2) else (s.vdDefine v (vdOf (fun i => d.getD i 0)), 0)

/-- VDSET (R382, R388). -/
def execVdset (q : Nat) (s : State) : Out State :=
  .next (s.privileged q 8 fun x ws s => ((s.vdSet ws).1.unitReads x.vd (ws.getD 2 0).toNat 64, (s.vdSet ws).2))

/-- One bit step of CRC-32C (log 7). -/
def crcStep (c : BitVec 32) : BitVec 32 := if c.getLsbD 0 then (c >>> 1) ^^^ 0x82F63B78 else c >>> 1

/-- CRC-32C of bytes, its register starting at an initial value (log 7). -/
def crc32c (init : BitVec 32) (bs : List Byte) : BitVec 32 :=
  ~~~(bs.foldl (fun c b => (List.range 8).foldl (fun c _ => crcStep c) (c ^^^ b.zeroExtend 32)) init)

/-- The words 4 to 7 of a control block pass the check of a bind of queue n (R384). -/
def State.bindOk (s : State) (n : Nat) (w : Nat → Word) : Bool :=
  let v := bits (w 4) 63 60
  bits (w 4) 47 38 == n && (TabOps.find? s.vds v).isSome && bits (w 4) 37 0 == 0 && w 5 == 0 && bits (w 6) 63 32 == 0
    && w 7 == 0
    && (w 6).extractLsb' 0 32 == crc32c (s.vd v).key (leBytes (w 4).toNat 8 ++ leBytes (w 5).toNat 8)

/-- The device that the hypervisor gave a queue to (R395). -/
def State.queueVd (s : State) (n : Nat) : Nat :=
  ((s.nodes.find? (fun v => decide (v.2.first ≤ n ∧ n < v.2.first + v.2.count))).map Prod.fst).getD 0

/-- The device through which a queue's control block is read: the one it is bound to, else the one that the
hypervisor gave it to (log 7). -/
def State.bindVd (s : State) (n : Nat) : Nat := if (s.queue n).state = 0 then s.queueVd n else (s.queue n).vd

/-- A bind performed: the words of the control block are checked and cached. A queue that was active keeps its place in
the ring, another one begins at 0 (log 7). -/
def State.bindNow (s : State) (n : Nat) (qcb : Word) (w : Nat → Word) : State :=
  let x := s.queue n
  if s.bindOk n w then
    s.setQueue n { (if x.state = 1 then x else Queue.unbound) with
      state := 1
      err := 0
      logn := bits (w 0) 3 0
      ring := w 0 &&& ~~~0xFFF
      qcb := qcb
      vd := bits (w 4) 63 60
      prio := bits (w 4) 59 58
      gceil := (w 4).extractLsb' 56 2
      policy := bits (w 4) 55 48
      closing := false
      picked := false }
  else
    s.setQueue n { x with
      state := 2
      err := 3
      qcb := qcb
      vd := s.bindVd n
      closing := false
      picked := false }

/-- The commands of a queue that a bind waits for: all but that bind itself. -/
def Queue.waits (x : Queue) (own : Running) : Bool := x.busy.any (· != own)

/-- A queue no longer closed by a bind that came to nothing. -/
def State.openQueue (s : State) (n : Nat) : State :=
  { s with queues := TabOps.mapVals (fun i x => if i = n then { x with closing := false } else x) s.queues }

/-- An unbind performed: an active queue becomes unbound; one in error leaves that state only by BIND (R384, R387). -/
def State.unbindNow (s : State) (n : Nat) : State :=
  if (s.queue n).state = 1 then
    s.setQueue n { s.queue n with
      state := 0
      closing := false
      picked := false }
  else s.openQueue n

/-- What a bind or unbind of queue n does; none where the control block cannot be read. -/
def State.bindDo (s : State) (n : Nat) (qcb : Option Word) : Option State :=
  match qcb with
  | none => some (s.unbindNow n)
  | some a => (s.vaWords (s.bindVd n) a 8).map (fun ws => (s.bindNow n a (fun i => ws.getD i 0)).vaReads (s.bindVd n) a 64)

/-- The bind or unbind of queue n performed for queue q, once the target's running commands are over; its status is
written. A control block that cannot be read, or a status address that no longer translates, puts q in error, and the
command does nothing (R384, R387, R388). -/
def State.bindStep (s : State) (q n : Nat) (qcb : Option Word) (status : Word) : State :=
  if (s.queue n).waits (.bind n qcb status) then s
  else
    let s1 := ((s.bindDo n qcb).bind (fun t => t.vaStore none (s.queue q).vd status 0 4)).getD
      ((((qcb.map (fun a => s.vaReads (s.bindVd n) a 64)).getD s).openQueue n).queueError q 8)
    s1.commandDone q (fun r => r == .bind n qcb status)

/-- A queue closed for new commands while a bind waits. -/
def State.closeQueue (s : State) (n : Nat) : State :=
  { s with queues := TabOps.mapVals (fun i x => if i = n then { x with closing := true } else x) s.queues }

/-- The start of a BIND or UNBIND: its operands are checked, then it waits for the target's commands. -/
def State.bindStart (s : State) (q : Nat) (x : Queue) (ws : List Word) (qcb : Option Word) : State :=
  let n := (ws.getD 3 0).toNat
  match s.translate (ioDie x.vd) x.vd (ws.getD 1 0) .store with
  | .error _ => (s.keep (ioDie x.vd) x.vd (ws.getD 1 0)).queueError q 8
  | .ok (_, pa) =>
    let s := (s.keep (ioDie x.vd) x.vd (ws.getD 1 0)).logCommand q x ws [] []
    if 1024 ≤ n ∨ qcb.any (fun a => a.extractLsb' 0 6 != 0) then (s.homeWrite pa (leBytes 2 4) true).completed q
    else ((s.closeQueue n).started q (.bind n qcb (ws.getD 1 0))).bindStep q n qcb (ws.getD 1 0)

/-- A bind of a queue that waits, if there is one. -/
def Queue.binding (x : Queue) : Option (Nat × Option Word × Word) :=
  x.running.findSome? (fun r =>
    match r with
    | .bind n qcb st => some (n, qcb, st)
    | .launch _ _ | .op _ _ | .depwait _ _ | .over => none)

/-- BIND (R384, R388): it starts, or goes on once the target's running commands are over. -/
def execBind (q : Nat) (s : State) : Out State :=
  match (s.queue q).binding with
  | some (n, some a, st) => .next (s.bindStep q n (some a) st)
  | some (_, none, _) => .next s
  | none => .next (s.command q 9 fun x ws s => s.bindStart q x ws (some (ws.getD 2 0)))

/-- UNBIND (R384, R388). -/
def execUnbind (q : Nat) (s : State) : Out State :=
  match (s.queue q).binding with
  | some (n, none, st) => .next (s.bindStep q n none st)
  | some (_, some _, _) => .next s
  | none => .next (s.command q 10 fun x ws s => s.bindStart q x ws none)

/-- The binds that may apply to a queue now apply before a doorbell write of the same cycle (R396): those that wait, and
those that a queue of the hypervisor may start. -/
def State.bindFirst (s : State) (n : Nat) : State :=
  s.queues.foldl (fun s y =>
    match (s.queue y.1).binding with
    | some (m, some a, st) => if m = n then s.bindStep y.1 m (some a) st else s
    | some (_, none, _) => s
    | none =>
      let next := s.ringEntry (s.queue y.1) (s.queue y.1).next
      if next.any (fun ws => entryType ws == 9 && entryOk ws && (ws.getD 3 0).toNat == n) && (s.queue y.1).vd == 0 then
        s.command y.1 9 (fun x ws s => s.bindStart y.1 x ws (some (ws.getD 2 0)))
      else s) s

/-! ### Doorbells (R385) -/

/-- The queue whose doorbell lies at an offset of a page: the device's queue j at byte 8j. Virtual function v + 1 is
device v's; the physical function has no device, and no doorbell (R378, R385, R395; log 70). -/
def State.doorbellQueue (s : State) (page : DoorbellPage) (off : Nat) : Option Nat :=
  let vd := match page with
    | .function fn => if 1 ≤ fn ∧ fn < 17 then some (fn - 1) else none
    | .guest vd => some vd
  match vd.bind (TabOps.find? s.nodes) with
  | some n => if off % 8 = 0 ∧ off / 8 < n.count ∧ off < 2 ^ 16 then some (n.first + off / 8) else none
  | none => none

/-- TAIL of a queue, or an error when it moves backwards or passes HEAD by more than the ring holds; the queue's policy
runs for the enqueue (R385, R394). -/
def State.doorbell (s : State) (q : Nat) (tail : BitVec 32) : State :=
  let s := s.bindFirst q
  let x := s.queue q
  if x.state ≠ 1 then s
  else if 2 ^ 31 ≤ (tail - x.tail).toNat ∨ 2 ^ (x.logn + 4) < (tail - x.head).toNat then s.queueError q 4
  else
    let live := x.stamps.filter (fun t => decide (0 < (t.1 - x.head).toNat ∧ (t.1 - x.head).toNat < 2 ^ 31))
    let s1 : State := { s with queues := TabOps.put s.queues q { x with
      tail := tail
      stamps := live ++ [(tail, s.cpCycle)] } }
    s1.callPolicy { vd := x.vd, pol := x.policy, event := .enqueue, queue := q, held := 0, clock := s.clock }

/-- DOORBELL_WRITE (R385, R394, R396): through a function's BAR0 only while the ports serve (R397, R399). -/
def execDoorbellWrite (bell : Doorbell) (tail : BitVec 32) (s : State) : Out State :=
  let open' := match bell.page with
    | .function _ => s.portsUp
    | .guest _ => true
  match s.doorbellQueue bell.page bell.off with
  | some q => if open' then .next (s.doorbell q tail) else .next s
  | none => .next s

/-! ### SHOOT, and POLLOAD with its verifier (R206, R388, R393) -/

/-- What SHOOT does, with its status: every TLB of the module drops the device's entries (R206, R388). -/
def State.shoot (s : State) (ws : List Word) : State × Nat :=
  let v := (ws.getD 3 0).toNat
  if 16 ≤ v then (s, 2) else ({ s with tlb := s.tlb.filter (fun t => t.vd != v) }, 0)

/-- SHOOT (R206, R388). -/
def execShoot (q : Nat) (s : State) : Out State := .next (s.privileged q 11 fun _ ws s => s.shoot ws)

/-- The target of a branch at a position. -/
def branchTarget (pos : Nat) (k : BitVec 14) : Int := (pos : Int) + k.toInt

/-- The branch at a position of a decoded program. -/
def branchAt : Instr → Option (BitVec 14)
  | .cBeq _ _ k => some k
  | .cBne _ _ k => some k
  | .cBlt _ _ k => some k
  | .cBge _ _ k => some k
  | .cJmp k => some k
  | _ => none

/-- The length of a LOOPN body. -/
def loopAt : Instr → Option Nat
  | .cLoopn _ l => some l.toNat
  | _ => none

/-- The number of a persistent word. -/
def persistAt : Instr → Option (BitVec 14)
  | .cLds _ k => some k
  | .cSts _ k => some k
  | _ => none

/-- The verifier accepts a decoded program (R393): branches go forward and stay within the program, to its end at most
(log 7); LOOPN bodies stay within it and hold no LOOPN; no branch leaves or enters a body but to its loop end. -/
def verified (p : List Instr) : Bool :=
  let at' := p.zipIdx
  let loops := at'.filterMap (fun x => (loopAt x.1).map (fun l => (x.2 + 1, x.2 + 1 + l)))
  at'.all fun x =>
    (match branchAt x.1 with
     | none => true
     | some k =>
       let t := branchTarget x.2 k
       decide (1 ≤ k.toInt ∧ t ≤ p.length) && loops.all (fun b =>
         let inside := decide (b.1 ≤ x.2 ∧ x.2 < b.2)
         let lands := decide ((b.1 : Int) ≤ t ∧ t < b.2)
         (inside == lands) || decide (t = b.2)))
    && (match loopAt x.1 with
        | none => true
        | some l => decide (x.2 + 1 + l ≤ p.length)
            && ((p.drop (x.2 + 1)).take l).all (fun i => (loopAt i).isNone))
    && (match persistAt x.1 with
        | none => true
        | some k => decide (k.toNat ≤ 15))

/-- The verifier on the words of a program (R393). -/
def verify (ws : List (BitVec 32)) : Bool :=
  decide (1 ≤ ws.length ∧ ws.length ≤ Config.policyLength) &&
    (match ws.mapM (fun w => (decodeCompass w).toOption) with
     | some p => verified p
     | none => false)

/-- What POLLOAD does, with its status: a program that passes is loaded with its persistent words at 0 (R388, R392,
R393). -/
def State.polLoad (s : State) (ws : List Word) : State × Nat :=
  let w := ws.getD 3 0
  let n := bits w 8 0
  let prog := (List.range n).map (fun i =>
    BitVec.ofNat 32 (leValue (s.homeBytes ((ws.getD 2 0).toNat + 4 * i) 4)))
  if !verify prog then (s, 1)
  else
    let ps := TabOps.put s.policies (polKey (bits w 63 60) (bits w 55 48))
      { program := prog, persist := List.replicate 16 0 }
    ({ s with policies := ps }, 0)

/-- POLLOAD (R388, R392, R393). -/
def execPolload (q : Nat) (s : State) : Out State :=
  .next (s.privileged q 12 fun x ws s =>
    ((s.polLoad ws).1.unitReads x.vd (ws.getD 2 0).toNat (4 * bits (ws.getD 3 0) 8 0), (s.polLoad ws).2))

/-! ### Replay (R404) and the registers of Retrace (R403) -/

/-- The inputs of an entry stand as they stood when it was logged. -/
def State.inputsMatch (s : State) (x : Queue) (e : LogEntry) : Bool :=
  e.inputs.all (fun i => sha512 (s.vaBytes x.vd i.1 i.2.1) == i.2.2)

/-- A replay of an entry begins, under the number of its grid or operation: what it draws from is what the entry holds
(R404). -/
def State.replayPool (s : State) (e : LogEntry) : State :=
  { s with retrace := { s.retrace with pools := TabOps.put s.retrace.pools s.opNext e } }

/-- A logged launch run again: its grid takes the logged places and system-call results. -/
def State.replayLaunch (s : State) (q : Nat) (x : Queue) (e : LogEntry) : State :=
  let gid := s.opNext
  let g := { s.queueGrid (some gid) q x (Packet.ofWords e.packet) none with
    queue := none
    fixed := some (TabOps.get [] e.places 0)
    replay := some (gid, 0) }
  (s.replayPool e).addGrid g

/-- A replayed operation: its status address is kept. -/
def State.replayOp (s : State) (e : LogEntry) (o : Op) (va : Word) : State :=
  let id := s.opNext
  let s := s.replayPool e
  ({ s with retrace := { s.retrace with status := TabOps.put s.retrace.status id (o.vd, va) } } : State).opStart
    { o with shadow := some id }

/-- A replay of a command that stores a value itself: it stands apart from memory, under a number of its own (R241). -/
def State.replayStore (s : State) (vd : Nat) (va v : Word) (n : Nat) : Option State :=
  ({ s with opNext := s.opNext + 1 } : State).vaStore (some s.opNext) vd va v n

/-- A privileged command run again, with its status (R388, R404). -/
def State.replayPrivileged (s : State) (x : Queue) (ws : List Word) (r : State × Nat) : State :=
  (r.1.replayStore x.vd (ws.getD 1 0) (BitVec.ofNat 64 r.2) 4).getD s

/-- A bind or unbind run again once its target's running commands are over. -/
def State.replayBind (s : State) (x : Queue) (ws : List Word) (qcb : Option Word) : State :=
  let n := (ws.getD 3 0).toNat
  if 1024 ≤ n ∨ qcb.any (fun a => a.extractLsb' 0 6 != 0) then s.replayPrivileged x ws (s, 2)
  else if (s.queue n).waits .over then s
  else match s.bindDo n qcb with
    | some t => s.replayPrivileged x ws (t, 0)
    | none => s

/-- A logged command run again (R404). A DEPWAIT changes nothing but when the next command starts, and a replay is of one
command (log 7). A POST raises no second interrupt: replays are invisible (R241; log 62). -/
def State.replayCommand (s : State) (q : Nat) (x : Queue) (e : LogEntry) : State :=
  let ws := e.command
  if !s.operandHomed (entryType ws) ws then s
  else match entryType ws with
  | 1 => s.replayLaunch q x e
  | 2 =>
    (match entryCmd ws e.descG with
     | some c => s.replayOp e (queueOp none (.copy c) (bits (ws.getD 2 0) 4 0) x.vd 0) (ws.getD 1 0)
     | none => s)
  | 3 =>
    (match s.entryColl (some s.opNext) q x ws with
     | .ok (c, die) =>
       (s.replayOp e (queueOp none (.coll c) die x.vd 3) (ws.getD 1 0)).collIssue (some s.opNext) c die
     | .error _ => s)
  | 5 => (s.replayStore x.vd (ws.getD 1 0) (ws.getD 2 0) 8).getD s
  | 8 => s.replayPrivileged x ws (s.vdSet ws)
  | 9 => s.replayBind x ws (some (ws.getD 2 0))
  | 10 => s.replayBind x ws none
  | 11 => s.replayPrivileged x ws (s.shoot ws)
  | 12 => s.replayPrivileged x ws (s.polLoad ws)
  | _ => s

/-- RETRACE_REPLAY (R404): a mismatch of an input refuses the command. What the replay stores stands apart from memory
(R241; log 62). -/
def execRetraceReplay (entry : Nat) (s : State) : Out State :=
  match s.retrace.log[entry]? with
  | none => .next s
  | some e =>
    let x := s.queue e.queue
    let reads := fun (t : State) => e.inputs.foldl (fun t i => t.vaReads x.vd i.1 i.2.1) t
    if x.state ≠ 1 then .next s
    else if s.inputsMatch x e then .next (reads (s.replayCommand e.queue x e))
    else .next (reads (s.queueError e.queue 9))

/-- HOUSEKEEPING_REGISTER_WRITE (R403): RTBASE or RTQ. -/
def execHousekeepingRegisterWrite (reg : HkReg) (value : Nat) (s : State) : Out State :=
  match reg with
  | .rtbase => .next { s with retrace := { s.retrace with rtbase := value % 2 ^ 64 } }
  | .rtq => .next { s with retrace := { s.retrace with rtq := value % 2 ^ 1024 } }

end Sys2Proof.Machine
end

