-- ==== Sys2Proof/Machine/Preempt.lean ====
section
/-! DEFINITION. Pre-emption (R352 to R354), the context image and its chunks (R355 to R357): urgent pre-emption, the drain
watchdog, save and restore. -/

namespace Sys2Proof.Machine

/-! ### Prefix codes (R356) -/

/-- The symbols of a length. -/
def codeCount (lens : List Nat) (l : Nat) : Nat := (lens.filter (· == l)).length

/-- The first code of a length in canonical order. -/
def firstCode (lens : List Nat) : Nat → Nat
  | 0 => 0
  | l + 1 => (firstCode lens l + (if l = 0 then 0 else codeCount lens l)) * 2

/-- The code of a symbol. -/
def codeOfSym (lens : List Nat) (x : Nat) : Nat :=
  firstCode lens (lens.getD x 0) + codeCount (lens.take x) (lens.getD x 0)

/-- The symbol that a code of a length stands for. -/
def symOfCode (lens : List Nat) (l code : Nat) : Option Nat :=
  if code < firstCode lens l then none
  else ((List.range 256).filter (fun x => lens.getD x 0 == l))[code - firstCode lens l]?

/-- The lengths of 256 symbols form a complete prefix code, or one symbol is present with length 1. -/
def lensOk (lens : List Nat) : Bool :=
  lens.length == 256 && lens.all (fun l => decide (l ≤ 15))
    && (((lens.filter (· != 0)).map (fun l => 2 ^ (15 - l))).sum == 2 ^ 15 || lens.filter (· != 0) == [1])

/-- The bits of a number, most significant first. -/
def msbBits (v : Nat) : Nat → List Bool
  | 0 => []
  | n + 1 => (v / 2 ^ n % 2 == 1) :: msbBits v n

/-- Bits packed into n bytes, each from bit 7 down, with zero padding. -/
def packBits (bs : List Bool) : Nat → List Byte
  | 0 => []
  | n + 1 => BitVec.ofNat 8 ((bs.take 8 ++ List.replicate 8 false).take 8 |>.foldl (fun v b => 2 * v + b.toNat) 0)
      :: packBits (bs.drop 8) n

/-- The bits of bytes, each from bit 7 down. -/
def unpackBits (bs : List Byte) : List Bool := bs.flatMap (fun b => msbBits b.toNat 8)

/-- Symbols decoded from a stream; none when a code matches no symbol or the stream ends inside one. -/
def decodeSyms (lens : List Nat) (code len : Nat) : List Bool → Option (List Nat)
  | [] => if len = 0 then some [] else none
  | b :: bs =>
    match symOfCode lens (len + 1) (2 * code + b.toNat) with
    | some x => (decodeSyms lens 0 0 bs).map (fun xs => x :: xs)
    | none => if 15 ≤ len + 1 then none else decodeSyms lens (2 * code + b.toNat) (len + 1) bs

/-! ### Chunks (R356, R357) -/

/-- The exponent of a word, and its sign and mantissa. -/
def wordExp (w : Nat) : Nat := w / 2 ^ 23 % 256
def wordRest (w : Nat) : Nat := w / 2 ^ 31 * 2 ^ 23 + w % 2 ^ 23

/-- The 32-bit words of bytes. -/
def words32 (bs : List Byte) : Nat → List Nat
  | 0 => []
  | n + 1 => leValue (bs.take 4) :: words32 (bs.drop 4) n

/-- CRC-32C with the usual start. -/
def crcOf (bs : List Byte) : Nat := (crc32c (BitVec.allOnes 32) bs).toNat

/-- The two header words of a chunk. -/
def chunkHeader (crc ebits : Nat) (raw : Bool) (index : Nat) : List Byte :=
  leBytes (crc * 2 ^ 32 + ebits * 2 ^ 16 + raw.toNat) 8 ++ leBytes index 8

/-- The exponent stream of words. -/
def expStream (lens : List Nat) (ws : List Nat) : List Bool :=
  ws.flatMap (fun w => msbBits (codeOfSym lens (wordExp w)) (lens.getD (wordExp w) 0))

/-- A chunk of 4 KiB stored, with the code lengths that the writer chose, or RAW where they do not serve or save
nothing (R356). -/
def encodeChunk (index : Nat) (bs : List Byte) (lens : List Nat) : List Byte :=
  let ws := words32 bs 1024
  let e := expStream lens ws
  let words := (e.length + 31) / 32
  if lensOk lens && ws.all (fun w => decide (1 ≤ lens.getD (wordExp w) 0)) && decide (16 + 128 + 4 * words + 3072 ≤ 4112)
  then
    chunkHeader (crcOf bs) e.length false index
      ++ (List.range 128).map (fun i => BitVec.ofNat 8 (lens.getD (2 * i) 0 + 16 * lens.getD (2 * i + 1) 0))
      ++ packBits e (4 * words) ++ ws.flatMap (fun w => leBytes (wordRest w) 3)
  else chunkHeader (crcOf bs) 0 true index ++ bs

/-- The words of exponents and 24-bit values. -/
def joinWords : List Nat → List Byte → List Byte
  | [], _ => []
  | e :: es, bs =>
    let v := leValue (bs.take 3)
    leBytes (v / 2 ^ 23 * 2 ^ 31 + e * 2 ^ 23 + v % 2 ^ 23) 4 ++ joinWords es (bs.drop 3)

/-- A stored chunk decoded; none when it fails its check (R357). -/
def decodeChunk (index : Nat) (bs : List Byte) : Option (List Byte) :=
  let h := BitVec.ofNat 64 (leValue (bs.take 8))
  let i := leValue ((bs.drop 8).take 4)
  let ebits := bits h 31 16
  let body := bs.drop 16
  let data : Option (List Byte) :=
    if bit h 0 then (if bs.length = 4112 ∧ ebits = 0 then some body else none)
    else
      let lens := (body.take 128).flatMap (fun b => [b.toNat % 16, b.toNat / 16])
      let n := 4 * ((ebits + 31) / 32)
      if bs.length = 16 + 128 + n + 3072 ∧ lensOk lens then
        match decodeSyms lens 0 0 ((unpackBits ((body.drop 128).take n)).take ebits) with
        | some xs => if xs.length = 1024 then some (joinWords xs (body.drop (128 + n))) else none
        | none => none
      else none
  match data with
  | some d => if i = index ∧ crcOf d = bits h 63 32 then some d else none
  | none => none

/-! ### Images (R355) -/

/-- The saved state of save n cut into chunks of 4 KiB. -/
def savedChunks (n : Nat) : List (List Byte) :=
  let bs := Config.contextBytes n
  (List.range ((bs.length + 4095) / 4096)).map
    (fun i => ((bs.drop (4096 * i)).take 4096 ++ List.replicate 4096 0).take 4096)

/-- A length rounded up to a multiple of 16. -/
def up16 (n : Nat) : Nat := (n + 15) / 16 * 16

/-- The chunks laid one after another from an offset: offset, stored bytes. -/
def layChunks (off : Nat) : List (List Byte) → List (Nat × List Byte)
  | [] => []
  | c :: cs => (off, c) :: layChunks (off + up16 c.length) cs

/-- The image of save n with the address of its launch state. -/
def imageOf (n : Nat) (launch : Word) : List Byte :=
  let cs := (savedChunks n).zipIdx.map (fun c => encodeChunk c.2 c.1 (Config.codeLengths c.1))
  let laid := layChunks (up16 (32 + 8 * cs.length)) cs
  let dir := laid.flatMap (fun c => leBytes (c.1 * 2 ^ 16 + c.2.length) 8)
  let total := laid.foldl (fun t c => max t (c.1 + c.2.length)) (up16 (32 + 8 * cs.length))
  let w0 := leBytes (cs.length * 2 ^ 32 + 0x0001 * 2 ^ 16 + 0x5A7E) 8
  let w1 := leBytes launch.toNat 8
  let w3 := leBytes total 8
  let head := w0 ++ w1 ++ leBytes (crcOf (w0 ++ w1 ++ w3 ++ dir)) 8 ++ w3 ++ dir
  laid.foldl (fun bs c => bs ++ List.replicate (c.1 - bs.length) 0 ++ c.2) head

/-- Every line of a range of physical memory has a home (R200, R405). -/
def State.homed (s : State) (pa n : Nat) : Bool := (lineRanges pa n).all (fun x => s.homeState (128 * x.1) == .ok)

/-- The parts of an image as its header and its directory give them: addresses and lengths. -/
def State.imageParts (s : State) (pa : Nat) : List (Nat × Nat) :=
  let w := fun i => s.homeWord (pa + 8 * i)
  let n := if bits (w 0) 15 0 = 0x5A7E ∧ bits (w 0) 31 16 = 1 then bits (w 0) 63 32 else 0
  (pa, 32 + 8 * n) :: (List.range n).map (fun i => (pa + bits (w (4 + i)) 63 16, bits (w (4 + i)) 15 0))

/-- What the read of an image leaves: the check, hit, request and record of its lines (R199, R259, R269). -/
def State.imageReads (s : State) (vd pa : Nat) : State :=
  ((s.imageParts pa).filter (fun x => s.homed x.1 x.2)).foldl (fun s x => s.unitReads vd x.1 x.2) s

/-- An image read and checked: the saved bytes, or none (R357); it cannot be read where a part of it has no home (R405). -/
def State.readImage (s : State) (pa : Nat) : Option (List Byte) :=
  let w := fun i => s.homeWord (pa + 8 * i)
  let n := bits (w 0) 63 32
  if !(s.imageParts pa).all (fun x => s.homed x.1 x.2) then none else
  let dir := s.homeBytes (pa + 32) (8 * n)
  let crc := crcOf (s.homeBytes pa 16 ++ s.homeBytes (pa + 24) 8 ++ dir)
  if bits (w 0) 15 0 != 0x5A7E || bits (w 0) 31 16 != 1 || bits (w 2) 31 0 != crc then none
  else ((List.range n).mapM (fun i =>
    let e := w (4 + i)
    if 16 ≤ bits e 15 0 ∧ bits e 15 0 ≤ 4112 then
      decodeChunk i (s.homeBytes (pa + bits e 63 16) (bits e 15 0))
    else none)).map List.flatten

/-! ### Urgent pre-emption and the drain watchdog (R352, R353) -/

/-- The waves of a neighbourhood's teams. -/
def State.nbWaves (s : State) (n : Nb) : List Nat :=
  n.teams.flatMap (fun t => ((TabOps.find? s.teams t).map Team.waves).getD [])

/-- No chain of a neighbourhood's waves is open (R82). -/
def State.chainsOver (s : State) (n : Nb) : Bool :=
  (s.nbWaves n).all (fun i => (s.waveAt i).all (fun w => !s.chainOpen i w))

/-- The fragments of a stopping neighbourhood have stopped once no chain of it is open: from that cycle its waves' bounds
and deadlines count no further (R182, R353). -/
def State.settleStop (s : State) (n : Nb) : State :=
  if s.chainsOver n then (s.nbWaves n).foldl State.stopWave s else s

/-- A neighbourhood stopped at instruction boundaries: its waves issue nothing more, but that an open chain ends first
(R353). -/
def State.stopNb (s : State) (nb : Nat) : State :=
  match TabOps.find? s.nbs nb with
  | none => s
  | some n =>
    if n.life = .placed then ({ s with nbs := TabOps.put s.nbs nb { n with life := NbLife.stopping } } : State).settleStop n
    else s

/-- URGENT_PREEMPTION (R353). -/
def execUrgentPreemption (nb : Nat) (s : State) : Out State := .next (s.stopNb nb)

/-- DRAIN_WATCHDOG_EXPIRE (R352, R400): the neighbourhoods of a draining grid that still run are pre-empted
urgently. -/
def execDrainWatchdogExpire (gid : Nat) (s : State) : Out State :=
  match TabOps.find? s.grids gid with
  | none => .next s
  | some g =>
    if g.drain && g.life == .running then
      .next ((s.nbsOf gid).foldl (fun s n =>
        if n.2.teams.any (fun t => (TabOps.find? s.teams t).any (fun t => t.life == .running)) then s.stopNb n.1 else s) s)
    else .next s

/-! ### The save (R353 to R355, R375) -/

/-- A fragment between two instructions: no load of it waits for the CXL tier. -/
def atBoundary : Park → Bool
  | .cxl _ _ => false
  | _ => true

/-- A wave may be saved: no chain is open, and its loads have completed. -/
def Wave.atRest (w : Wave) : Bool := w.latches.isEmpty && w.live.all (fun f => atBoundary f.2.park)

/-- A collective part that waits for a peer does not hold up a save (R375). -/
def State.mayFloat (s : State) (o : Op) : Bool :=
  match o.body with
  | .coll c => s.collWaits c
  | .copy _ | .bank _ | .mma _ | .mzero _ => false

/-- A team of a neighbourhood may be saved, or has nothing left to save: it is held at a drain point, or its
neighbourhood stops and its waves are at rest; its operations have completed, those of an ended team too (R335). -/
def State.teamSavable (s : State) (stopping : Bool) (tid : Nat) : Bool :=
  match TabOps.find? s.teams tid with
  | none => true
  | some t =>
    t.life == .retired || (t.life == .ended && (s.teamOps tid).all (fun o => s.mayFloat o.2) && !t.tileBusy) ||
      ((t.life == .held || (t.life == .running && stopping))
        && t.waves.all (fun i => ((s.waveAt i).map Wave.atRest).getD true)
        && (s.teamOps tid).all (fun o => s.mayFloat o.2) && !t.tileBusy)

/-- A wave as it is saved in cycle `cyc`, stopped at cycle `now`: deadlines and bounds as they stand to its stop, the waits
of its fragments, some of which may have begun after it, to its save, its slot free (R158, R182, R183, R344, R354). -/
def Wave.save (w : Wave) (now cyc : Word) : Wave :=
  { w with
    life := .saved
    core := 100000
    stopAt := some now
    maskNew := 0
    frags := w.frags.map (fun f => f.map (fun f => { f with since := f.since - cyc }))
    recs := w.recs.map (fun r => r.map (fun r => { r with first := r.first.map (fun c => now - c) }))
    binds := w.binds.map (fun b => { b with deadline := b.deadline.map (fun d => d - now) }) }

/-- A wave as it is restored on a core at cycle `now`. -/
def Wave.restore (w : Wave) (now : Word) (die core slot : Nat) : Wave :=
  { w with
    life := .running
    die := die
    core := core
    slot := slot
    drain := false
    stopAt := none
    frags := w.frags.map (fun f => f.map (fun f => { f with since := f.since + now }))
    recs := w.recs.map (fun r => r.map (fun r => { r with first := r.first.map (fun c => now - c) }))
    binds := w.binds.map (fun b => { b with deadline := b.deadline.map (fun d => d + now) }) }

/-- A team saved: a release at system scope for each wave, then its slots and ways are free. -/
def State.saveTeam (s : State) (tid : Nat) : State :=
  match TabOps.find? s.teams tid with
  | none => s
  | some t =>
    if t.life != .running && t.life != .held then s
    else match TabOps.find? s.grids t.grid with
      | none => s
      | some g =>
        let s1 := t.waves.foldl (fun s i =>
          match s.waveAt i with
          | some w => s.release (s.routeOf i w t g) 6 .none
          | none => s) s
        let s2 := t.waves.foldl (fun s i =>
          match s.waveAt i with
          | some w => s.setWave i (w.save (s.timeOf w) (s.cycleOf w))
          | none => s.modWave i (fun w => { w with core := 100000 })) s1
        (s2.setTeam tid { t with
          life := .saved
          core := 100000 }).shrinkL1 (coreKey t.die t.core)

/-- Every placed team of a draining neighbourhood has reached its drain point, or the neighbourhood stops (R352,
R353). -/
def State.nbSavable (s : State) (n : Nb) : Bool :=
  (n.life == .placed || n.life == .stopping) && n.teams.all (s.teamSavable (n.life == .stopping))
    && n.teams.any (fun t => (TabOps.find? s.teams t).any (fun t => t.life == .held || t.life == .running))

/-- CONTEXT_SAVE (R354, R355): the image is written at the address that the resident kernel gives, and the cores are
free; what ended waves left dirty there goes home as well (R360). What the image holds is internal to the part: the
state keeps it (log 9). -/
def execContextSave (nb : Nat) (image : Nat) (s : State) : Out State :=
  match TabOps.find? s.nbs nb with
  | none => .next s
  | some n =>
    match TabOps.find? s.grids n.grid with
    | none => .next s
    | some g =>
      if !s.nbSavable n then .next s
      else
        let s0 := n.teams.foldl (fun s t => s.saveTeam t) s
        let s1 := (g.packet.coresAt n.die n.origin).foldl (fun s key => s.writeBack key 7) s0
        let k := s1.opNext
        let bs := imageOf k (Config.freeWord s1.free)
        let s2 : State := { s1 with
          opNext := k + 1
          free := s1.free + 1
          nbs := TabOps.put s1.nbs nb { n with
            life := NbLife.saved
            image := some image
            imageLen := bs.length
            saveNo := k } }
        .next ((s2.flushFused g.packet n.die n.origin).homeWrite image bs true)

/-! ### The restore (R354, R357) -/

/-- The saved teams of a neighbourhood. -/
def State.savedTeams (s : State) (n : Nb) : List (Nat × Team) :=
  n.teams.filterMap (fun i => (TabOps.find? s.teams i).bind (fun t => if t.life = .saved then some (i, t) else none))

/-- A die and origin have room for the saved teams, and no core that the map names is fenced (R152 to R154, R401, R405). -/
def State.restoreFits (s : State) (g : Grid) (ts : List (Nat × Team)) (die o : Nat) : Bool :=
  let p := g.packet
  p.onMesh o
    && ts.all (fun t => s.coreFits (coreKey die (placeCore o (p.map.getD t.2.mapSlot 0))) p (t.2.spSize + t.2.l1x * 1024))
    && (p.coresAt die o).all (fun key => !(s.core key).fenced)
    && (!p.fuse || (p.coresAt die o).all (fun key => (s.residents key).isEmpty))
    && ((s.die die).service != .twilight || decide (g.launchG.toNat ≤ 1))

/-- A core's counter as a wave resumes there: not below what the wave may have read before its stop, so that CYCLE never
decreases (R46); the cycles up to it pass before the restore (log 3). -/
def State.catchUp (s : State) (key : Nat) (w : Wave) : State :=
  let c := s.core key
  let stop := w.stopAt.getD 0
  if c.cycle.toNat < stop.toNat then s.setCore key { c with cycle := stop } else s

/-- A wave restored: it keeps its handle and acquires at system scope (R354). -/
def State.restoreWave (s : State) (i : Nat) (t : Team) (g : Grid) (die core : Nat) : State :=
  match s.waveAt i with
  | none => s
  | some w =>
    let s := s.catchUp (coreKey die core) w
    let x := s.takeSlot die core (w.idx % 4) false
    let w' := w.restore ((s.core (coreKey die core)).cycle) die core x.2.1
    (x.1.setWave i w').acquire (x.1.routeOf i w' t g) 6 []

/-- The dictionary RAM of a core loaded again from the table address of the saved launch state (R86); an entry whose
address no longer translates keeps what it held, and a team of another grid there that has the same table sees what was
loaded again (log 45). -/
def State.reloadDict (s : State) (g : Grid) (key : Nat) : State :=
  let p := g.packet
  if p.dictN = 0 then s
  else
    let ws := (List.range p.dictN).map (fun i =>
      match s.translate (ioDie g.vd) g.vd (p.dict + BitVec.ofNat 64 (8 * i)) .load with
      | .ok (_, pa) => s.homeWord pa
      | .error _ => g.dict.getD i 0)
    let s := s.vaReads g.vd p.dict (8 * p.dictN)
    s.setCore key { s.core key with dict := some (p.dict, ws) }

/-- A team restored, with its table in the core's dictionary RAM (R86, R354). -/
def State.restoreTeam (s : State) (g : Grid) (i : Nat) (t : Team) (die o : Nat) : State :=
  let p := g.packet
  let core := placeCore o (p.map.getD t.mapSlot 0)
  let key := coreKey die core
  let t' := { t with life := TeamLife.running, die := die, core := core }
  let s := s.setTeam i t'
  let s := s.reloadDict g key
  t.waves.foldl (fun s w => s.restoreWave w t' g die core) s

/-- The neighbourhood placed again; its grid's drain is over (log 9). -/
def State.restoreAt (s : State) (nb : Nat) (n : Nb) (g : Grid) (die o : Nat) : State :=
  let ts := s.savedTeams n
  let s1 := s.flushFused g.packet die o
  let s2 : State := { s1 with nbs := TabOps.put s1.nbs nb { n with
    life := NbLife.placed
    die := die
    origin := o
    image := none } }
  let s3 := s2.setGrid n.grid { g with drain := false }
  ts.foldl (fun s t => s.restoreTeam g t.1 t.2 die o) s3

/-- The first place with room: by die, then row, then column; the restore of an early consumer's team leaves room on the die
for its producer's next one (R390). -/
def State.restorePlace (s : State) (nb : Nat) (n : Nb) (g : Grid) : Option (Nat × Nat) :=
  (List.range 24).findSome? (fun die =>
    if (s.vd g.vd).dies.getLsbD die && s.diePlaces die then
      match (List.range 48).find? (fun o => s.restoreFits g (s.savedTeams n) die o) with
      | some o => if (s.restoreAt nb n g die o).keepsRoom g die then some (die, o) else none
      | none => none
    else none)

/-- CONTEXT_RESTORE (R357): an image that fails its check twice, or that is not what the part wrote there (log 9),
is a context fault. -/
def execContextRestore (nb : Nat) (s : State) : Out State :=
  match TabOps.find? s.nbs nb with
  | none => .next s
  | some n =>
    match TabOps.find? s.grids n.grid, n.image with
    | some g, some pa =>
      if n.life != .saved || g.life != .running || (g.drain && !s.drainOver n.grid) then .next s
      else if s.readImage pa != some (savedChunks n.saveNo).flatten then
        .next ((s.imageReads g.vd pa).stopGrid n.grid 3 0 0 0)
      else match s.restorePlace nb n g with
        | some (die, o) => .next ((s.imageReads g.vd pa).restoreAt nb n g die o)
        | none => .next s
    | _, _ => .next s

end Sys2Proof.Machine
end

