-- ==== Sys2Proof/Machine/Dawn.lean ====
section
/-! DEFINITION. Dawn: power-on, firmware images, attestation, heartbeats, die reset (R397 to R400), Twilight and full
service (R401, R402), and fences (R405). -/

namespace Sys2Proof.Machine

/-! ### Images (R398, R399) -/

namespace FlashImage

/-- A header word. -/
def word (i : FlashImage) (n : Nat) : Word := i.header.getD n 0

/-- The digest that the signature covers. -/
def digest (i : FlashImage) : List Byte :=
  sha512 ((List.range 4).flatMap (fun n => leBytes (i.word n).toNat 8) ++ i.key ++ i.body)

/-- Dawn accepts an image for a stage (R398). -/
def accepted (d : Dawn) (kind : Nat) (i : FlashImage) : Bool :=
  bits (i.word 0) 63 48 == 0xDA57 && bits (i.word 0) 47 40 == kind && decide (bits (i.word 0) 39 32 ≤ 3)
    && !(d.revoked.getD (bits (i.word 0) 39 32) true)
    && d.keyHash.getD (bits (i.word 0) 39 32) [] == sha512 i.key
    && decide (d.minSvn.getD (kind - 1) 0 ≤ bits (i.word 0) 31 0)
    && i.key.length == 133 && i.body.length == (i.word 1).toNat && i.body.length % 8 == 0 && i.sig.length == 132
    && ecdsaVerify i.key i.digest i.sig

end FlashImage

/-- The copy of a stage's image that Dawn accepts: A, then B (R399). -/
def Dawn.image (d : Dawn) (kind : Nat) : Option FlashImage :=
  let c := d.flash.getD (kind - 1) (none, none)
  match c.1.filter (FlashImage.accepted d kind) with
  | some i => some i
  | none => c.2.filter (FlashImage.accepted d kind)

/-- A stage unlocked with its measurement, or recovery when both copies fail (R398, R399). -/
def Dawn.unlock (d : Dawn) (kind : Nat) : Dawn :=
  if d.recovery || d.stage + 1 < kind then d
  else match d.image kind with
    | some i => { d with
        stage := max d.stage kind
        measured := if d.stage < kind then d.measured ++ [i.digest] else d.measured }
    | none => { d with recovery := true }

/-- MSTAT (R402). -/
def State.mstat (s : State) : Word :=
  let bitsOf := fun (v : DieService) => (List.range 24).foldl (fun n d => if (s.die d).service == v then n + 2 ^ d else n) 0
  BitVec.ofNat 64 ((if s.dawn.recovery then 15 else s.dawn.stage) * 2 ^ 60 + bitsOf .full * 2 ^ 24 + bitsOf .fenced)

/-- A read of BAR0: MSTAT at 0xF000 of the physical function (R402); what else stands there is free (log 70). -/
def State.bar0Read (s : State) (fn off n : Nat) : State :=
  let at' := fun i => if fn = 0 ∧ 0xF000 ≤ off + i ∧ off + i < 0xF008 then (leBytes s.mstat.toNat 8).getD (off + i - 0xF000) 0
    else (Config.freeWord (Nat.pair s.free i)).extractLsb' 0 8
  { s with
    hostData := (List.range n).map at'
    free := s.free + 1 }

/-- HOST_ACCESS (R378): a read of BAR0, where MSTAT is there in recovery too (R399, R402); a write to a doorbell; BAR2 at
the home of each line, while the ports serve. -/
def execHostAccess (fn : Nat) (place : BarPlace) (acc : HostAccess) (s : State) : Out State :=
  let off := place.off
  match place.bar, acc with
  | .bar0, .read n =>
    if s.dawn.running && (s.portsUp || (fn == 0 && decide (0xF000 ≤ off ∧ off + n ≤ 0xF008))) then .next (s.bar0Read fn off n)
    else .next s
  | .bar0, .write bs =>
    if bs.length = 4 then execDoorbellWrite ⟨.function fn, off⟩ (BitVec.ofNat 32 (leValue bs)) s else .next s
  | .bar2, .read n =>
    (match (if s.portsUp then s.barParts fn off n else none) with
     | some ps => .next (s.barRead ps)
     | none => .next s)
  | .bar2, .write bs =>
    (match (if s.portsUp then s.barParts fn off bs.length else none) with
     | some ps => .next (s.barWrite bs ps)
     | none => .next s)

/-- The part without power: what the flash, the fuses and the outside hold stays. -/
def State.powered (s : State) : State :=
  let d : Dawn := { Dawn.reset with
    running := true
    flash := s.dawn.flash
    revoked := s.dawn.revoked
    keyHash := s.dawn.keyHash
    minSvn := s.dawn.minSvn }
  { State.reset with
    agenda := s.agenda
    free := s.free
    dawn := d }

/-- POWER_ON (R397): every unit is held in reset; stages 1 and 2 are verified in order. -/
def execPowerOn (s : State) : Out State :=
  let s := s.powered
  .next { s with dawn := (s.dawn.unlock 1).unlock 2 }

/-- A die changed. -/
def State.setDie (s : State) (d : Nat) (h : Die → Die) : State := { s with dies := TabOps.put s.dies d (h (s.die d)) }

/-- The cached lines that have another home in a later state: those that the formula of R200 homes on a die which comes into
service, and those of an out-of-service die for which it is the nearest now. -/
def State.movingLines (s t : State) : List Nat :=
  (s.msc.map Prod.fst).filter (fun l => s.homeDie (l * 128) != t.homeDie (l * 128))

/-- A die enters Twilight service: every CXL line whose home changes with it is written back first (R200, R401). -/
def State.serveDie (s : State) (die : Nat) : State :=
  let up := fun (d : Die) => { d with
    unlocked := true
    service := .twilight }
  ((s.movingLines (s.setDie die up)).foldl (fun s l => s.mscEvict l) s).setDie die up

/-- HBM_TRAINING_COMPLETE (R397, R401): the stack has trained; microcode that is verified unlocks the die, which enters
Twilight service. -/
def execHbmTrainingComplete (die : Nat) (s : State) : Out State :=
  if 24 ≤ die || !s.dawn.running || (s.die die).trained || (s.die die).service == .fenced then .next s
  else
    let s1 := s.setDie die (fun d => { d with trained := true })
    if s1.dawn.recovery || s1.dawn.stage < 2 then .next s1
    else
      let s2 : State := { s1 with dawn := s1.dawn.unlock 3 }
      if (s1.dawn.image 3).isSome then .next (s2.serveDie die) else .next s2

/-- ATTESTATION_REQUEST (R398). -/
def execAttestationRequest (s : State) : Out State :=
  if s.dawn.running && decide (2 ≤ s.dawn.stage) then
    .next { s with dawn := { s.dawn with attested := Config.attest s.dawn.measured } }
  else .next s

/-- HEARTBEAT (R400). -/
def execHeartbeat (cp : Nat) (s : State) : Out State :=
  .next { s with dawn := { s.dawn with missed := setAt s.dawn.missed cp 0 } }

/-- HEARTBEAT_MISS (R400): the second miss in a row resets the processor. The model counts 16 command processors, one per
control core of R1, since R400 gives no number (log 72). -/
def execHeartbeatMiss (cp : Nat) (s : State) : Out State :=
  let n := s.dawn.missed.getD cp 0 + 1
  if 16 ≤ cp || !s.dawn.running then .next s
  else if 2 ≤ n then
    .next { s with dawn := { s.dawn with
      missed := setAt s.dawn.missed cp 0
      resets := s.dawn.resets + 1 } }
  else .next { s with dawn := { s.dawn with missed := setAt s.dawn.missed cp n } }

/-! ### Die reset (R400) -/

/-- The grids with a neighbourhood on a die. -/
def State.gridsOn (s : State) (die : Nat) : List Nat :=
  ((s.nbs.filter (fun n => n.2.die == die && (n.2.life == .placed || n.2.life == .stopping))).map
    (fun n => n.2.grid)).eraseDups

/-- TINFO of a grid that a die's reset stops. -/
def resetInfo (die : Nat) : Word := 0x8000000000000000 + BitVec.ofNat 64 die

/-- The MSC lines homed on a die. -/
def State.mscOf (s : State) (die : Nat) : List Nat :=
  (s.msc.map Prod.fst).filter (fun l => s.homeDie (l * 128) == die)

/-- A dirty line of a die that does not answer: lost and marked poisoned, with a DETECT record to its page's
owner. -/
def State.loseLine (s : State) (die line : Nat) : State :=
  match TabOps.find? s.msc line with
  | none => s
  | some l =>
    let s1 : State := { s with msc := TabOps.drop s.msc line }
    if l.dirty = 0 then s1
    else
      let o := s.pageCode line
      (s1.markPoisoned line).errorRecord o.vd
        { owner := o.owner, kind := 1, grade := o.grade.toNat, eg := 0, die := die, handle := 0, line := line * 128, pc := 0,
          cycle := s.dieCycle die }

/-- The cores of a die in reset. -/
def State.resetCores (s : State) (die : Nat) : State :=
  { s with cores := TabOps.mapVals (fun k c =>
      if k / 48 = die then { Core.reset with fenced := c.fenced } else c) s.cores }

/-- A TLB of a die, shared or a core's. -/
def tlbOn (die tlb : Nat) : Bool := tlb == die || (decide (100 ≤ tlb) && (tlb - 100) / 2 / 48 == die)

/-- The queues' operations that ran on a die wait for its engines again; those of its stopped grids complete (R345, R400;
log 66). -/
def State.resetEngines (s : State) (die : Nat) : State :=
  { s with ops := TabOps.mapVals (fun _ o =>
      if o.die = die ∧ o.wave = 0 ∧ o.life = OpLife.running ∧ o.body.engine.isSome then
        { o with life := OpLife.queued, moved := 0 }
      else o) s.ops }

/-- A die reset: its grids stop, its MSC is written back or lost, its cores, TLBs and windows start anew. -/
def State.resetDie (s : State) (die : Nat) (answers : Bool) : State :=
  let s1 := (s.gridsOn die).foldl (fun s g => s.stopGrid g 2 0 0 (resetInfo die)) s
  let s2 := (s1.mscOf die).foldl (fun s l => if answers then s.mscEvict l else s.loseLine die l) s1
  let s3 := ((s2.resetCores die).resetEngines die).setDie die (fun d => { d with
    service := .resetting
    unlocked := false })
  { s3 with
    requests := TabOps.drop s3.requests die
    tlb := s3.tlb.filter (fun t => !tlbOn die t.tlb)
    pins := s3.pins.filter (fun p => p.die != die)
    free := s3.free + 1 }

/-- DIE_RESET (R400). -/
def execDieReset (die : Nat) (answers : Bool) (s : State) : Out State :=
  if (s.die die).up then .next (s.resetDie die answers) else .next s

/-- DIE_RETURN_TO_SERVICE (R200, R400, R401): its microcode verified again, the die serves and takes back its CXL
lines. -/
def execDieReturnToService (die : Nat) (s : State) : Out State :=
  if (s.die die).service != .resetting || s.dawn.recovery || (s.dawn.image 3).isNone then .next s
  else .next (s.serveDie die)

/-! ### Full service (R402) -/

/-- No team is resident on a die. -/
def State.dieIdle (s : State) (die : Nat) : Bool :=
  s.teams.all (fun t => t.2.die != die || t.2.life == .retired || t.2.life == .saved)

/-- FULL_SERVICE_SWITCH (R402). -/
def execFullServiceSwitch (die : Nat) (s : State) : Out State :=
  if (s.die die).service == .twilight && !s.twilightOn && s.dieIdle die then
    .next (s.setDie die (fun d => { d with service := .full }))
  else .next s

/-! ### Fences (R405) -/

/-- UNIT_FENCE (R405): whether a fenced die still answers is free (log 5). -/
def execUnitFence (u : FenceUnit) (s : State) : Out State :=
  match u with
  | .core die core => .next (s.setCore (coreKey die core) { s.core (coreKey die core) with fenced := true })
  | .die die =>
    let s1 := if (s.die die).up then s.resetDie die (Config.freeChoice s.free % 2 == 0) else s
    .next (s1.setDie die (fun d => { d with service := .fenced }))
  | .bank stack bank =>
    .next { s with dawn := { s.dawn with fencedBanks := ((stack, bank) :: s.dawn.fencedBanks).eraseDups } }
  | .cxlPort port =>
    .next (((s.failOps port 5).failHeld port Cause.cxldown (fun _ => 0)).setPort port (fun p => { p with
      linkUp := false
      available := false
      fenced := true }))
  | .ethPort port => .next { s with dawn := { s.dawn with fencedEth := (port :: s.dawn.fencedEth).eraseDups } }

end Sys2Proof.Machine
end

