-- ==== Sys2Proof/Machine/Matrix.lean ====
section
/-! DEFINITION. The matrix engine (R62 to R67, R303 to R318): the format block, capture, MMA, MMA.p and MZERO, MRD and
MWR with the tile interlock, and the steps of the arrays. -/

namespace Sys2Proof.Machine

/-! ### The format block (R305, R306) -/

/-- A format block. -/
structure Block where
  afmt : Nat
  bfmt : Nat
  ac   : Bool
  bc   : Bool
  aq   : Bool
  bq   : Bool
  kb   : Nat
  vb   : Nat
  rsv  : Nat
  acs  : Nat
  bcs  : Nat
  aqs  : Nat
  bqs  : Nat
  deriving DecidableEq, Repr

/-- The block that two registers hold. -/
def Block.ofWords (x y : Word) : Block :=
  { afmt := bits x 63 60, bfmt := bits x 59 56, ac := bit x 55, bc := bit x 54, aq := bit x 53, bq := bit x 52,
    kb := bits x 51 46, vb := bits x 45 39, rsv := bits x 38 20, acs := bits x 19 0,
    bcs := bits y 63 44, aqs := bits y 43 22, bqs := bits y 21 0 }

/-- An 8-bit or 4-bit floating format. -/
def narrowFmt (f : Nat) : Bool := f == 3 || f == 4 || f == 5

/-- The legal pairs (R66, R306). -/
def pairOk (a b : Nat) : Bool := (narrowFmt a && narrowFmt b) || (a == b && (a == 1 || a == 2 || a == 10))

/-- The element width of a format in bits. -/
def matBits (f : Nat) : Nat := (Num.of (BitVec.ofNat 4 f)).width

/-- The block breaks no rule of R306; in Twilight service the narrow formats are withheld (R401). -/
def Block.ok (b : Block) (twilight : Bool) : Bool :=
  pairOk b.afmt b.bfmt && !(b.aq && !(b.afmt == 4 || b.afmt == 5)) && !(b.bq && !(b.bfmt == 4 || b.bfmt == 5))
    && decide (1 ≤ b.kb ∧ b.kb ≤ 32) && b.rsv == 0 && !(twilight && (narrowFmt b.afmt || narrowFmt b.bfmt))

namespace Block

/-- K, and the promotion intervals. -/
def K (b : Block) : Nat := 32 * b.kb
def NI (b : Block) : Nat := (b.K + 127) / 128

/-- The elements of B that one register of a quarter holds (R307). -/
def P (b : Block) (w : Nat) : Nat := 32 / matBits b.bfmt * w / 32

/-- The registers of a quarter, which BFMT alone decides; none for a code that is no format of B (R306, R307, R309). -/
def regs (b : Block) (w : Nat) : List Nat :=
  if pairOk b.bfmt b.bfmt then (List.range ((b.K + b.P w - 1) / b.P w)).map (· + b.vb) else []

/-- The bytes of a row of A that are read, and its pitch (R307). -/
def rowBytes (b : Block) : Nat := (b.K * matBits b.afmt + 7) / 8
def pitch (b : Block) : Nat := 128 * b.NI * matBits b.afmt / 8

/-- The bytes of a run of quad scales. -/
def quadBytes (b : Block) : Nat := (b.K / 4 + 1) / 2

/-- The ranges that capture reads, operand by operand: A, its coarse and quad scales, those of B (R307, R308). -/
def ranges (b : Block) (sa rows : Nat) : List (List (Nat × Nat)) :=
  [ (List.range rows).map (fun i => (sa + i * b.pitch, b.rowBytes)),
    if b.ac then [(4 * b.acs, 4 * rows * b.NI)] else [],
    if b.aq then (List.range rows).map (fun i => (b.aqs + i * 16 * b.NI, b.quadBytes)) else [],
    if b.bc then [(4 * b.bcs, 4 * b.NI)] else [],
    if b.bq then (List.range 128).map (fun c => (b.bqs + c * 16 * b.NI, b.quadBytes)) else [] ]

end Block

/-- The first offset outside a scratchpad that the ranges of an operand reach (R343). -/
def rangesFault (size : Nat) (rs : List (Nat × Nat)) : Option Nat :=
  (rs.find? (fun r => decide (size < r.1 + r.2))).map (fun r => max r.1 size)

/-! ### Capture (R307, R308, R315) -/

/-- A nibble of a scratchpad. -/
def nibbleAt (m : Mem) (base n : Nat) : BitVec 4 :=
  BitVec.ofNat 4 ((MemOps.read m (base + n / 2)).toNat / 16 ^ (n % 2))

/-- A 32-bit word of a scratchpad. -/
def laneAt (m : Mem) (a : Nat) : Lane := BitVec.ofNat 32 (leValue (MemOps.readBytes m a 4))

/-- The operands as they stand. -/
def captureMat (b : Block) (t : Team) (ws : List Wave) (sa rows : Nat) (paired : Bool) (half : BitVec 6) (tag : Grade)
    (follower : Option Nat) : MatCmd :=
  let quads := b.K / 4
  { paired := paired, half := half, afmt := b.afmt, bfmt := b.bfmt, k := b.K, width := (ws.headD (Wave.start 0 0 0 0
      (Packet.ofWords []) 0 0 0 0 0)).width,
    a := (List.range rows).map (fun i => MemOps.readBytes t.sp (sa + i * b.pitch) b.rowBytes)
    b := ws.map (fun w => (b.regs w.width).map (fun r => (w.v r).lanes))
    ac := if b.ac then some ((List.range rows).map (fun i =>
      (List.range b.NI).map (fun j => laneAt t.sp (4 * b.acs + 4 * (i * b.NI + j))))) else none
    bc := if b.bc then some ((List.range b.NI).map (fun j => laneAt t.sp (4 * b.bcs + 4 * j))) else none
    aq := if b.aq then some ((List.range rows).map (fun i =>
      (List.range quads).map (fun j => nibbleAt t.sp b.aqs (i * 32 * b.NI + j)))) else none
    bq := if b.bq then some ((List.range 128).map (fun c =>
      (List.range quads).map (fun j => nibbleAt t.sp b.bqs (c * 32 * b.NI + j)))) else none
    tag := tag, follower := follower, executed := false }

/-! ### Issue (R304, R309) -/

/-- The matrix operation of an operation. -/
def Op.mat? (o : Op) : Option MatCmd :=
  match o.body with
  | .mma m => some m
  | .copy _ | .bank _ | .coll _ | .mzero _ => none

/-- The core of a team. -/
def State.teamKey (s : State) (tid : Nat) : Nat :=
  match TabOps.find? s.teams tid with
  | some t => coreKey t.die t.core
  | none => 0

/-- The cores whose arrays an operation uses. -/
def State.matCores (s : State) (o : Op) (m : MatCmd) : List Nat :=
  coreKey o.die o.core :: (m.follower.map s.teamKey).toList

/-- The matrix operations in flight that use the array of a core. -/
def State.matOps (s : State) (key : Nat) : List (Nat × MatCmd) :=
  s.ops.filterMap (fun o => o.2.mat?.bind (fun m => if (s.matCores o.2 m).contains key then some (o.1, m) else none))

/-- Both capture slots of a core are taken (R309). -/
def State.captureFull (s : State) (key : Nat) : Bool :=
  decide (2 ≤ ((s.matOps key).filter (fun m => !m.2.executed)).length)

/-- The array of a core is slaved to a paired operation (R304). -/
def State.slaved (s : State) (key : Nat) : Bool :=
  (s.matOps key).any (fun m => m.2.follower.any (fun t => s.teamKey t == key))

/-- The follower team of a leader team: at map entry o + 1 of its neighbourhood (R304). -/
def State.followerOf (s : State) (t : Team) (g : Grid) : Option (Nat × Team) :=
  match TabOps.find? s.nbs t.nb with
  | none => none
  | some n => n.teams.findSome? (fun i => (TabOps.find? s.teams i).bind (fun u =>
      if g.packet.map.getD u.mapSlot 48 = g.packet.map.getD t.mapSlot 48 + 1 ∧ u.life ≠ .retired then some (i, u)
      else none))

/-- A tile half of a team. -/
def Team.tile (t : Team) (k : BitVec 6) : Tile := t.tiles.getD k.toNat (Tile.start 0)

/-- A tile half replaced. -/
def State.setTile (s : State) (tid : Nat) (k : BitVec 6) (f : Tile → Tile) : State :=
  s.modTeam tid (fun t => { t with tiles := setAt t.tiles k.toNat (f (t.tile k)) })

/-- An operation put at the end of the queue of a half (R314). -/
def State.enqueueTile (s : State) (tid : Nat) (k : BitVec 6) (e : TileEntry) : State :=
  s.setTile tid k (fun x => { x with queue := x.queue ++ [e] })

/-- An ended wave as MMA reads it: its registers are discarded (R157), so their lanes are free; they are not poisoned and
lower no tag (log 81). -/
def Wave.discarded (w : Wave) (n : Nat) : Wave :=
  let lane := fun r l => (Config.freeWord (Nat.pair n ((w.idx * 128 + r) * 128 + l))).extractLsb' 0 32
  { w with vregs := (List.range w.nv).map (fun r =>
      { lanes := (List.range w.width).map (lane r), tag := 3, poison := 0 }) }

/-- Waves 0 to 3 of a team, with what MMA reads in their registers (R305). -/
def State.quarters (s : State) (t : Team) : List Wave :=
  (t.waves.take 4).filterMap (fun i => (TabOps.find? s.waves i).map (fun w =>
    if w.life == .ended then w.discarded s.free else w))

/-- The words of A that capture reads. -/
def Block.aWords (b : Block) (tid sa rows : Nat) : List (Nat × Nat) :=
  (List.range rows).flatMap (fun i =>
    let start := sa + i * b.pitch
    (List.range ((start + b.rowBytes - 1) / 4 + 1 - start / 4)).map (fun j => (tid, (start / 4 + j) * 4)))

/-- The tag of an operation's result (R264). -/
def Block.resultTag (b : Block) (s : State) (eg : Grade) (ws : List Wave) (words : List (Nat × Nat)) : Grade :=
  let t := words.foldl (fun t p => Grade.min t (s.spTag p)) eg
  ws.foldl (fun t w => (b.regs w.width).foldl (fun t r => Grade.min t (w.v r).tag) t) t

/-- The capture and the queueing of an operation whose checks have passed (R309). -/
def Ctx.captureMma (c : Ctx) (s : State) (b : Block) (sa rows : Nat) (k : BitVec 6) (paired : Bool)
    (fol : Option Nat) : State :=
  let ws := s.quarters c.t
  let words := b.aWords c.w.team sa rows
  if words.any s.spPoison || ws.any (fun w => (b.regs w.width).any (fun r => (w.v r).poison != 0)) then c.consume s 0 0 false
  else
    let m := captureMat b c.t ws sa rows paired k (b.resultTag s c.w.eg ws words) fol
    let id := s.opNext
    let s := ({ c.next s c.w with free := s.free + 1 } : State).opStart (c.newOp (.mma m) 0 1)
    let s := s.enqueueTile c.w.team k (.op id)
    match fol with
    | some t => s.enqueueTile t k (.op id)
    | none => s

/-- MMA and MMA.p (R309). -/
def mmaInstr (s : State) (f a : SReg) (k : BitVec 6) (paired : Bool) : Out State :=
  scalarOp s [] [f.toNat, f.toNat + 1, a.toNat] [] fun c s =>
    let b := Block.ofWords (c.w.s f) (c.w.s (f + 1))
    let rows := if paired then 128 else 64
    let fol := if paired then s.followerOf c.t c.g else none
    let sa := (c.w.s a).toNat
    if !c.w.budget [] (b.regs c.w.width) || decide (c.t.tiles.length ≤ k.toNat) then c.raise s Cause.budget 0
    else if c.t.waves.length < 4 ∨ !b.ok ((s.die c.w.die).service == .twilight) then c.raise s Cause.mmabad 0
    else if paired && (!c.g.packet.paired || c.w.core % 2 == 1
        || !(fol.any (fun u => decide (k.toNat < u.2.tiles.length)))) then c.raise s Cause.mmabad 0
    else if sa % 128 ≠ 0 then c.raise s Cause.align (c.w.s a)
    else match (b.ranges sa rows).findSome? (rangesFault c.t.spSize) with
      | some x => c.raise s Cause.sprange (BitVec.ofNat 64 x)
      | none =>
        if s.captureFull c.w.key || s.slaved c.w.key || (fol.any (fun u => s.captureFull (s.teamKey u.1))) then
          c.stall s .pairBusy
        else c.captureMma s b sa rows k paired (fol.map Prod.fst)

/-- MMA (R309). -/
def execMma (f a : SReg) (k : BitVec 6) (s : State) : Out State := mmaInstr s f a k false

/-- MMA.p (R304, R309). -/
def execMmaP (f a : SReg) (k : BitVec 6) (s : State) : Out State := mmaInstr s f a k true

/-- MZERO queues on its half and joins the open MTX batch (R312). -/
def execMzero (k : BitVec 6) (s : State) : Out State :=
  scalarOp s [] [] [] fun c s =>
    if c.t.tiles.length ≤ k.toNat then c.raise s Cause.budget 0
    else
      let id := s.opNext
      ((c.next s c.w).opStart (c.newOp (.mzero k) 0 1)).enqueueTile c.w.team k (.op id)

/-! ### Accumulation (R62 to R67, R310) -/

/-- An element with its quad scale, exactly (R63). -/
def matElem (fmt raw : Nat) (q : Option (BitVec 4)) : Fp :=
  let x := (Num.of (BitVec.ofNat 4 fmt)).value raw
  match q with
  | some q => x.scale q.toInt
  | none => x

/-- Element (i, k) of A as captured (R307). -/
def MatCmd.aElem (m : MatCmd) (i k : Nat) : Fp :=
  let b := matBits m.afmt
  matElem m.afmt (leValue ((m.a.getD i []).drop (b * k / 8) |>.take 2) / 2 ^ (b * k % 8) % 2 ^ b)
    (m.aq.map (fun q => (q.getD i []).getD (k / 4) 0))

/-- Element (k, c) of B as captured (R307). -/
def MatCmd.bElem (m : MatCmd) (k c : Nat) : Fp :=
  let b := matBits m.bfmt
  let e := 32 / b
  let p := e * m.width / 32
  let lane := (((m.b.getD (c / 32) []).getD (k / p) []).getD (c % 32 + 32 * (k % p / e)) 0).toNat
  matElem m.bfmt (elemOf lane b (k % e)) (m.bq.map (fun q => (q.getD c []).getD (k / 4) 0))

/-- The interval's sum P: exact, or for 16-bit formats with each product truncated to a multiple of 2^(m-70) (R66);
special products by R67. A zero sum is +0. -/
def intervalSum (sixteen : Bool) (ps : List Fp) : Fp :=
  if ps.any (fun p => p.isNan || p.isInf) then (sumFp .rne ps).1
  else
    let nz := ps.filter (fun p => !p.isZero)
    match nz with
    | [] => .fin false 0 0
    | p :: rest =>
      let q := if sixteen then (rest.foldl (fun m x => max m x.exp2) p.exp2) - 70 else minExp nz
      let term := fun (x : Fp) =>
        match x with
        | .fin n m e => (if n then -1 else 1) * ((roundAt .rtz n m e q).1 : Int)
        | _ => 0
      Fp.ofInt false (nz.foldl (fun t x => t + term x) 0) q

/-- RoundTo f32 under RNE, as a value. -/
def round32 (x : Fp) : Fp := Fp.decode .f32 (roundTo .f32 .rne x).1

/-- One promotion interval added to an element of D (R65). -/
def MatCmd.interval (m : MatCmd) (i j : Nat) (d : Fp) (n : Nat) : Fp :=
  let ks := (List.range (min 128 (m.k - 128 * n))).map (· + 128 * n)
  let ps := round32 (intervalSum (matBits m.afmt == 16) (ks.map (fun k => (mulFp (m.aElem i k) (m.bElem k j)).1)))
  let ps := match m.ac with
    | some x => round32 (mulFp ps (Fp.decode .f32 ((x.getD i []).getD n 0).toNat)).1
    | none => ps
  let ps := match m.bc with
    | some x => round32 (mulFp ps (Fp.decode .f32 (x.getD n 0).toNat)).1
    | none => ps
  round32 (sumFp .rne [d, ps]).1

/-- An element of D after the operation, in row i of the operation's rows (R65). -/
def MatCmd.element (m : MatCmd) (i j : Nat) (d : Lane) : Lane :=
  BitVec.ofNat 32 (roundTo .f32 .rne ((List.range ((m.k + 127) / 128)).foldl (m.interval i j)
    (Fp.decode .f32 d.toNat))).1

/-- An element of a half; an unlisted one is +0. -/
def Tile.get (t : Tile) (e : Nat) : Lane := TabOps.get 0 t.vals e

/-- An element of a half written; +0 is not listed. -/
def Tile.put (t : Tile) (e : Nat) (v : Lane) : Tile :=
  { t with vals := if v = 0 then TabOps.drop t.vals e else TabOps.put t.vals e v }

/-- A half all of whose elements take new values. -/
def Tile.fill (t : Tile) (g : Nat → Lane) : Tile :=
  { t with vals := ((List.range 8192).map (fun e => (e, g e))).filter (fun x => x.2 != 0) }

/-- A half after an operation whose rows begin at `row` (R310). -/
def MatCmd.apply (m : MatCmd) (row : Nat) (t : Tile) : Tile :=
  { t.fill (fun e => m.element (row + e / 128) (e % 128) (t.get e)) with tag := Grade.min m.tag t.tag }

/-! ### The queue of a half (R304, R314) -/

/-- A reader's fragment still waits. -/
def State.readerWaits (s : State) : TileEntry → Bool
  | .op _ => true
  | .reader w f => (s.waveAt w).any (fun x => (x.frag? f).any (fun x =>
      match x.park with
      | .tile _ _ | .tileReady _ _ => true
      | _ => false))

/-- The queue of a half without readers that have ended. -/
def State.tileQueue (s : State) (tid : Nat) (k : BitVec 6) : List TileEntry :=
  match TabOps.find? s.teams tid with
  | some t => (t.tile k).queue.filter s.readerWaits
  | none => []

/-- An operation stands at the head of the queue of a half. -/
def State.atHead (s : State) (tid : Nat) (k : BitVec 6) (id : Nat) : Bool :=
  match s.tileQueue tid k with
  | .op i :: _ => i == id
  | _ => false

/-- A team whose halves keep the results of operations: one that has not exited (R318). -/
def State.keepsTiles (s : State) (tid : Nat) : Bool :=
  (TabOps.find? s.teams tid).any (fun t => t.life == .running || t.life == .held)

/-- A half of a team changed, unless the team has exited (R318). -/
def State.writeTile (s : State) (tid : Nat) (k : BitVec 6) (f : Tile → Tile) : State :=
  if s.keepsTiles tid then s.setTile tid k f else s

/-- No earlier operation uses an array of this one (R304). -/
def State.arrayTurn (s : State) (id : Nat) (o : Op) (m : MatCmd) : Bool :=
  (s.matCores o m).all (fun key => (s.matOps key).all (fun x => decide (id ≤ x.1) || x.2.executed && x.2.follower.isNone))

/-- MATRIX_OP_EXECUTE: an array, or both of a pair, accumulates the next operation into its halves (R304, R310). -/
def execMatrixOpExecute (id : Nat) (s : State) : Out State :=
  match TabOps.find? s.ops id with
  | none => .next s
  | some o =>
    match o.body with
    | .mma m =>
      if m.executed || !s.atHead o.team m.half id || !(m.follower.all (fun t => s.atHead t m.half id))
          || !s.arrayTurn id o m then .next s
      else
        let s := s.writeTile o.team m.half (m.apply 0)
        let s := match m.follower with
          | some t => s.writeTile t m.half (m.apply 64)
          | none => s
        .next (s.setOp id { o with life := .running, body := .mma { m with executed := true } })
    | _ => .next s

/-- The first operation leaves the queue of a half. -/
def Tile.pop (t : Tile) (id : Nat) : Tile := { t with queue := t.queue.filter (· != .op id) }

/-- A half after a second checksum mismatch: the second run's values are open, the poison bit is set, and the origin
word filled if it was clear (R303, R311, log 5). -/
def Tile.spoil (t : Tile) (origin : Word) (free : Nat) : Tile :=
  { t.fill (fun e => (Config.freeWord (Nat.pair free e)).extractLsb' 0 32) with
    poison := true
    origin := if t.poison then t.origin else origin }

/-- The batch that holds an operation of the MTX class: a number, or the open one. -/
def Wave.markTile (w : Wave) (id : Nat) : Wave :=
  if (w.batch 1).opened.contains id then { w with tileOpen := true }
  else match (w.batch 1).closed.find? (fun b => b.2.contains id) with
    | some b => { w with tileBad := w.tileBad ++ [BitVec.ofNat 16 b.1] }
    | none => w

/-- The traces of a second mismatch: both halves, the wave's origin latch, the TILE record, and what the wave will
observe (R311). -/
def State.spoilTiles (s : State) (id : Nat) (o : Op) (m : MatCmd) (g : Grid) : State :=
  let origin := originWord g.owner.toNat 5 o.eg.toNat 0
  let s := s.writeTile o.team m.half (fun t => t.spoil origin s.free)
  let s := match m.follower with
    | some t => s.writeTile t m.half (fun x => x.spoil origin (s.free + 1))
    | none => s
  let s : State := { s with free := s.free + 2 }
  let s := s.modWave o.wave (fun w => if w.life = .ended then w else (w.fillOrigin origin).markTile id)
  let h := ((TabOps.find? s.waves o.wave).map (fun w => w.handle.toNat)).getD 0
  s.errorRecord o.vd { owner := g.owner.toNat, kind := 5, grade := o.eg.toNat, eg := o.eg.toNat, die := o.die,
                       handle := h, line := 0, pc := 0, cycle := (s.core (coreKey o.die o.core)).cycle }

/-- MATRIX_OP_RETIRE: at EG 1 or above a first mismatch reruns the operation, a second one spoils its halves (R311);
retirement completes it for its batch (R310). -/
def execMatrixOpRetire (id mismatches : Nat) (s : State) : Out State :=
  match TabOps.find? s.ops id with
  | none => .next s
  | some o =>
    match o.body with
    | .mma m =>
      if !m.executed then .next s
      else
        let n := if o.eg = 0 then 0 else mismatches
        let s := if n = 0 then s
          else s.modWave o.wave (fun w => if w.life = .ended then w else w.disagree 1)
        let s := match (if 2 ≤ n then TabOps.find? s.grids o.grid else none) with
          | some g => s.spoilTiles id o m g
          | none => s
        let s := s.setTile o.team m.half (fun t => t.pop id)
        let s := match m.follower with
          | some t => s.setTile t m.half (fun x => x.pop id)
          | none => s
        .next (s.opDone id o 0)
    | _ => .next s

/-- MZERO_EXECUTE: +0 in every element, the tag EG at issue, no poison (R312). -/
def execMzeroExecute (id : Nat) (s : State) : Out State :=
  match TabOps.find? s.ops id with
  | none => .next s
  | some o =>
    match o.body with
    | .mzero k =>
      if !s.atHead o.team k id then .next s
      else
        let s := s.writeTile o.team k (fun t => { t with vals := [], tag := o.eg, poison := false, origin := 0 })
        .next ((s.setTile o.team k (fun t => t.pop id)).opDone id o 0)
    | _ => .next s

/-! ### MRD and MWR (R313, R314) -/

/-- The part that an MRD or MWR names: as it was read when the instruction entered the queue, else as it stands. -/
def Ctx.tilePart (c : Ctx) (f : VecForm) : Nat :=
  match c.f.park with
  | .tileReady _ p => p
  | _ => (((f.inputs c.w []).get 0).lane 0).toNat

/-- The causes of an MRD or MWR after decode, all that arise together (R48): those of any vector instruction, BUDGET of a
half that is not there, and MMABAD of a part beyond it, which is known where its register is there (R95, R313). -/
def Ctx.tileCauses (c : Ctx) (f : VecForm) (k : BitVec 6) : Word :=
  c.vectorCauses f ||| (if c.t.tiles.length ≤ k.toNat then Cause.budget else 0)
    ||| (if c.w.budget f.readsS [] && !c.w.pendingAny f.readsS && decide (8192 / c.w.width ≤ c.tilePart f)
         then Cause.mmabad else 0)

/-- An MRD or MWR at the head of its half's queue proceeds, and leaves the queue. -/
def Ctx.tileTurn (c : Ctx) (s : State) (f : VecForm) (k : BitVec 6) (go : Ctx → Tile → Nat → State → State) : State :=
  go c (c.t.tile k) (c.tilePart f)
    (s.setTile c.w.team k (fun t => { t with queue := t.queue.filter (· != .reader c.wid c.fid) }))

/-- The common course of MRD and MWR: the checks, then the instruction enters the queue and waits while anything stands
ahead of it; when its turn comes it goes on as it entered, and looks at no register again for its part (R314). -/
def Ctx.tileAccess (c : Ctx) (s : State) (f : VecForm) (k : BitVec 6) (go : Ctx → Tile → Nat → State → State) : State :=
  match c.f.park with
  | .tileReady _ _ => c.tileTurn s f k go
  | _ =>
    if c.tileCauses f k ≠ 0 then c.raise s (c.tileCauses f k) 0
    else c.vector s f 0 fun c s =>
      if (s.tileQueue c.w.team k).isEmpty then c.tileTurn s f k go
      else (c.wait s c.w (.tile k (c.tilePart f))).enqueueTile c.w.team k (.reader c.wid c.fid)

/-- MRD (R313): a poisoned half poisons every active lane and fills the origin latch with its origin word. -/
def execMrd (k : Bool) (d : VReg) (a : Src) (t : BitVec 6) (s : State) : Out State :=
  let f := VecForm.bare k [a] (.v32 d)
  withEnd s fun c =>
    c.tileAccess s f t fun c h p s =>
      let r := movedLanes c.w c.f.mask (fun l => h.get (p * c.w.width + l)) (fun _ => h.poison)
      let w := if h.poison && c.f.mask != 0 then c.w.endChain.fillOrigin h.origin else c.w.endChain
      c.finishOnce s w f r h.tag

/-- The active lanes of a register written into a half (R313). -/
def Tile.store (h : Tile) (w : Wave) (mask : LaneMask) (p : Nat) (x : VRegV) : Tile :=
  let h' := (List.range w.width).foldl (fun h l => if mask.getLsbD l then h.put (p * w.width + l) (x.lane l) else h) h
  let bad := x.poison &&& mask != 0
  { h' with
    tag := Grade.min h.tag x.tag
    poison := h.poison || bad
    origin := if bad && !h.poison then w.origin.getD 0 else h.origin }

/-- MWR (R313). -/
def execMwr (d : VReg) (a : Src) (t : BitVec 6) (s : State) : Out State :=
  let f := VecForm.bare false [a, d.zeroExtend 8] .none
  withEnd s fun c =>
    c.tileAccess s f t fun c _ p s =>
      let x := c.w.v d.toNat
      let s := s.setTile c.w.team t (fun h => h.store c.w c.f.mask p x)
      c.finishOnce s c.w.endChain f (movedLanes c.w c.f.mask x.lane x.poison.getLsbD) x.tag

/-- TILE_INTERLOCK_RELEASE: the reader at the head of a half's queue proceeds; the next one follows when it is done, so
that each reads some prefix of the queue (R314). -/
def execTileInterlockRelease (tid : Nat) (k : BitVec 6) (s : State) : Out State :=
  match s.tileQueue tid k with
  | .reader w f :: _ => .next (s.modWave w (fun x =>
      match x.frag? f with
      | some y =>
        (match y.park with
         | .tile k' p => x.setFrag f { y with park := .tileReady k' p }
         | _ => x)
      | none => x))
  | _ => .next s

end Sys2Proof.Machine
end

