-- ==== Sys2Proof/Machine/Approx.lean ====
section
/-! DEFINITION. The functions of R70: exact cases (R71), ranges and flags decided, the last place open. A value
inside the bound comes from the function of Config that has no body (R72, log 6); where that function leaves the
bound, the correctly rounded value stands. -/

namespace Sys2Proof.Machine

/-- 2 pi times 2^240, rounded down. -/
def twoPi : Int := 11101427517448923470466154259574275593670452188976819761925419650816006300

/-- The natural logarithm of 2 times 2^240, rounded down. -/
def ln2 : Int := 1224685061431752149387114016819916847747660333428801675508466606222838698

/-- A product of two numbers with 240 fraction bits. -/
def mul240 (a b : Int) : Int := a * b / 2 ^ 240

/-- The sum of the series t + t * a / ((k+1)) ..., from the term t that follows index k, in steps of `st`:
each next term is the one before times `a` over the next st integers. -/
def series (a : Int) (st : Nat) : Nat → Int → Nat → Int
  | 0, _, _ => 0
  | n + 1, t, k =>
    t + series a st n (mul240 t a / (if st = 2 then ((k + 1) * (k + 2) : Nat) else (k + 1 : Nat))) (k + st)

/-- sin of an angle of 240 fraction bits between -pi and pi. -/
def sin240 (a : Int) : Int := series (-(mul240 a a)) 2 48 a 1

/-- cos of an angle of 240 fraction bits between -pi and pi. -/
def cos240 (a : Int) : Int := series (-(mul240 a a)) 2 48 (2 ^ 240) 0

/-- e to the power a, for a of 240 fraction bits between 0 and 1. -/
def exp240 (a : Int) : Int := series a 1 64 (2 ^ 240) 0

/-- n bits of the base-2 logarithm of x, a number of 240 fraction bits in 1 to 2, by repeated squaring. -/
def log2Bits : Nat → Nat → Nat → Nat
  | 0, _, acc => acc
  | n + 1, x, acc =>
    let y := x * x / 2 ^ 240
    if 2 ^ 241 ≤ y then log2Bits n (y / 2) (2 * acc + 1) else log2Bits n y (2 * acc)

/-- |v| is at most b, for finite values. -/
def withinFp (v b : Fp) : Bool := !Fp.lt b v.abs

/-- v + w exactly, for finite values. -/
def addFin (v w : Fp) : Fp := (sumFp .rne [v, w]).1

/-- v * w exactly, for finite values. -/
def mulFin (v w : Fp) : Fp := (mulFp v w).1

/-- The exponent of ulp(y) for |y| with floor of the logarithm k (R70). -/
def ulpExp (k : Int) : Int := max k (-126) - 23

/-- The result of R70 for a value that is no exact case: the ranges from its correctly rounded pattern, else the
open function's value if it is finite, nonzero and inside the bound. -/
def openResult (fn : Config.Fn) (x : Lane) (rounded : Nat) (inside : Fp → Bool) : Nat × BitVec 6 :=
  let r := Fp.decode .f32 rounded
  if r.isInf then (rounded, Flag.of ||| Flag.nx)
  else if r.isZero then (rounded, Flag.uf ||| Flag.nx)
  else
    let c := (Config.approx fn x).toNat
    let v := Fp.decode .f32 c
    let p := if !v.isNan && !v.isInf && !v.isZero && inside v then c else rounded
    (p, Flag.nx ||| Flag.when (decide (p % 2 ^ 31 < 2 ^ 23)) Flag.uf)

/-- A value near an exact number whose approximation y is off by at most d: inside n halves of an ulp. -/
def insideNear (y d : Fp) (halves : Nat) (v : Fp) : Bool :=
  let k := (addFin y.abs d.flip).exp2
  withinFp (addFin (addFin v y.flip).abs d) (.fin false halves (ulpExp k - 1))

/-- VRCP (R70, R71): where the reciprocal is below the smallest normal magnitude, so is the result. -/
def rcpFp (x : Lane) : Nat × BitVec 6 :=
  match Fp.decode .f32 x.toNat with
  | .nan => (Fmt.nanBits .f32, 0)
  | .inf n => (Fmt.signBit .f32 n, 0)
  | .fin n m e =>
    if m = 0 then (Fmt.signBit .f32 n + Fmt.infBits .f32, Flag.dz)
    else
      let q := 2 ^ 100 / m
      let rounded := roundTo .f32 .rne (.fin n (2 * q + (if q * m = 2 ^ 100 then 0 else 1)) (-e - 101))
      if rounded.2 = 0 then rounded
      else
        let k : Int := -(e + Nat.log2 m) - (if m = 2 ^ Nat.log2 m then 0 else 1)
        openResult .rcp x rounded.1 fun v =>
          (decide (-126 ≤ k) || Fp.lt v.abs (.fin false 1 (-126)))
            && withinFp (addFin (mulFin v (.fin n m e)) (.fin true 1 0)) (.fin false m (e + ulpExp k))

/-- VRSQ (R70, R71). -/
def rsqFp (x : Lane) : Nat × BitVec 6 :=
  match Fp.decode .f32 x.toNat with
  | .nan => (Fmt.nanBits .f32, 0)
  | .inf false => (0, 0)
  | .inf true => (Fmt.nanBits .f32, Flag.nv)
  | .fin n m e =>
    if m = 0 then (Fmt.signBit .f32 n + Fmt.infBits .f32, Flag.dz)
    else if n then (Fmt.nanBits .f32, Flag.nv)
    else
      let e' := if e % 2 = 0 then e else e - 1
      let m' := if e % 2 = 0 then m else 2 * m
      let big := 2 ^ 200 / m'
      let r := isqrt big
      let exact := decide (r * r * m' = 2 ^ 200)
      let rounded := roundTo .f32 .rne (.fin false (2 * r + (if exact then 0 else 1)) (-100 - e' / 2 - 1))
      if rounded.2 = 0 then rounded
      else
        let lx := e + Nat.log2 m
        let k := (if m = 2 ^ Nat.log2 m then -lx else -lx - 1) / 2
        let u : Fp := .fin false 1 (ulpExp k)
        openResult .rsq x rounded.1 fun v =>
          let lo := addFin v u.flip
          let hi := addFin v u
          !v.neg && (lo.neg || !Fp.lt (.fin false 1 0) (mulFin (mulFin lo lo) (.fin false m e)))
            && !Fp.lt (mulFin (mulFin hi hi) (.fin false m e)) (.fin false 1 0)

/-- VSINT (R70, R71). -/
def sinFp (x : Lane) : Nat × BitVec 6 :=
  match reduceFp (Fp.decode .f32 x.toNat) with
  | (.fin n m e, fl) =>
    let t := (Fp.fin n m e).atExp (-240)
    if m = 0 then (Fmt.signBit .f32 n, fl)
    else if t = -(2 ^ 239) then (0, fl)
    else if t = 2 ^ 238 then (Fmt.oneBits .f32, fl)
    else if t = -(2 ^ 238) then (Fmt.signBit .f32 true + Fmt.oneBits .f32, fl)
    else
      let y := Fp.ofInt false (sin240 (mul240 t twoPi)) (-240)
      openResult .sin x (roundTo .f32 .rne y).1 (insideNear y (.fin false 1 (-225)) 3)
  | (_, fl) => (Fmt.nanBits .f32, fl)

/-- VCOST (R70, R71). -/
def cosFp (x : Lane) : Nat × BitVec 6 :=
  match reduceFp (Fp.decode .f32 x.toNat) with
  | (.fin n m e, fl) =>
    let t := (Fp.fin n m e).atExp (-240)
    if m = 0 then (Fmt.oneBits .f32, fl)
    else if t = -(2 ^ 239) then (Fmt.signBit .f32 true + Fmt.oneBits .f32, fl)
    else if t = 2 ^ 238 ∨ t = -(2 ^ 238) then (0, fl)
    else
      let y := Fp.ofInt false (cos240 (mul240 t twoPi)) (-240)
      openResult .cos x (roundTo .f32 .rne y).1 (insideNear y (.fin false 1 (-225)) 3)
  | (_, fl) => (Fmt.nanBits .f32, fl)

/-- VEXP2 (R70, R71). Below −149 the result is +0 with UF and NX as R71 says, down from where R70's own ranges would
still give 2⁻¹⁴⁹ (log 6). -/
def exp2Fp (x : Lane) : Nat × BitVec 6 :=
  match Fp.decode .f32 x.toNat with
  | .nan => (Fmt.nanBits .f32, 0)
  | .inf false => (Fmt.infBits .f32, 0)
  | .inf true => (0, 0)
  | .fin n m e =>
    let v := Fp.fin n m e
    let N := floorInt v
    if 128 ≤ N then (Fmt.infBits .f32, Flag.of ||| Flag.nx)
    else if N < -149 then (0, Flag.uf ||| Flag.nx)
    else
      let f := v.atExp (-240) - N * 2 ^ 240
      if f = 0 then roundTo .f32 .rne (.fin false 1 N)
      else
        let y := Fp.ofInt false (exp240 (mul240 f ln2)) (N - 240)
        openResult .exp2 x (roundTo .f32 .rne y).1 (insideNear y (.fin false 1 (N - 225)) 2)

/-- VLOG2 (R70, R71). -/
def log2Fp (x : Lane) : Nat × BitVec 6 :=
  match Fp.decode .f32 x.toNat with
  | .nan => (Fmt.nanBits .f32, 0)
  | .inf false => (Fmt.infBits .f32, 0)
  | .inf true => (Fmt.nanBits .f32, Flag.nv)
  | .fin n m e =>
    if m = 0 then (Fmt.signBit .f32 true + Fmt.infBits .f32, Flag.dz)
    else if n then (Fmt.nanBits .f32, Flag.nv)
    else
      let k := Nat.log2 m
      if m = 2 ^ k then roundTo .f32 .rne (Fp.ofInt false (e + k) 0)
      else
        let y := Fp.ofInt false ((e + k) * 2 ^ 100 + (log2Bits 100 (m * 2 ^ (240 - k)) 0 : Nat)) (-100)
        openResult .log2 x (roundTo .f32 .rne y).1 (insideNear y (.fin false 1 (-97)) 2)

end Sys2Proof.Machine
end

