-- ==== Sys2Proof/Machine/VecFloat.lean ====
section
/-! DEFINITION. Vector floating-point instructions: FP32, compares, VFUN, packed BF16 and FP16 (R124 to R128, R134),
and VCVT (R130 to R133). -/

namespace Sys2Proof.Machine

/-- An operand of a format after ABS and NEG; `second` selects the modifiers of b (R58). -/
def modOperand (m : ModWord) (f : Fmt) (second : Bool) (p : Nat) : Fp :=
  if second then modFp m.absb m.negb (Fp.decode f p) else modFp m.absa m.nega (Fp.decode f p)

/-- SCALE, RoundTo and SAT of an exact result, with the flags of computing it (R58). -/
def modFinish (m : ModWord) (f : Fmt) (x : Fp × BitVec 6) : Nat × BitVec 6 :=
  let r := finishFp f (Rnd.of m.rnd) (scaleOf m.scale) m.sat x.1
  (r.1, x.2 ||| r.2)

/-- An FP32 instruction: the exact result of a, b and c under a mode (R124). -/
def floatOp (s : State) (f : VecForm) (g : Rnd → Fp → Fp → Fp → Fp × BitVec 6) : Out State :=
  laneOp s f fun _ x l =>
    let m := ModWord.get f.m
    modFinish m .f32 (g (Rnd.of m.rnd) (modOperand m .f32 false ((x.get 0).lane l).toNat)
      (modOperand m .f32 true ((x.get 1).lane l).toNat) (Fp.decode .f32 (x.third.lane l).toNat))

/-- Element j of 16 bits of a lane (R50). -/
def elem16 (p : Lane) (j : Nat) : Nat := p.toNat / 2 ^ (16 * j) % 65536

/-- A packed instruction of two elements, each rounded into its format (R127). -/
def halfOp (s : State) (f : VecForm) (fmt : Fmt) (g : Rnd → Fp → Fp → Fp → Fp × BitVec 6) : Out State :=
  laneOp s f fun _ x l =>
    let m := ModWord.get f.m
    let r := fun j => modFinish m fmt (g (Rnd.of m.rnd) (modOperand m fmt false (elem16 ((x.get 0).lane l) j))
      (modOperand m fmt true (elem16 ((x.get 1).lane l) j)) (Fp.decode fmt (elem16 (x.third.lane l) j)))
    ((r 0).1 + 65536 * (r 1).1, (r 0).2 ||| (r 1).2)

/-- a × b + c exactly, NV for 0 times infinity even with a NaN (R59, R124). -/
def fmaFp (mode : Rnd) (a b c : Fp) : Fp × BitVec 6 :=
  let p := mulFp a b
  let q := sumFp mode [p.1, c]
  (q.1, p.2 ||| q.2)

/-- c + a.0 × b.0 + a.1 × b.1 with one rounding (R128). -/
def dotOp (s : State) (f : VecForm) (fmt : Fmt) : Out State :=
  laneOp s f fun _ x l =>
    let m := ModWord.get f.m
    let p := fun j => mulFp (modOperand m fmt false (elem16 ((x.get 0).lane l) j))
      (modOperand m fmt true (elem16 ((x.get 1).lane l) j))
    let q := sumFp (Rnd.of m.rnd) [Fp.decode .f32 (x.third.lane l).toNat, (p 0).1, (p 1).1]
    modFinish m .f32 (q.1, (p 0).2 ||| (p 1).2 ||| q.2)

/-- A VFUN function computed exactly and rounded under the mode (R126). -/
def funOp (s : State) (f : VecForm) (g : Fp → Fp × BitVec 6) : Out State :=
  laneOp s f fun _ x l =>
    let m := ModWord.get f.m
    modFinish m .f32 (g (modOperand m .f32 false ((x.get 0).lane l).toNat))

/-- The FP32 pattern of a source after ABS and NEG. -/
def modPattern (m : ModWord) (p : Lane) : Lane :=
  let q := if m.absa then p &&& 0x7FFFFFFF else p
  if m.nega then q ^^^ 0x80000000 else q

/-- A function whose value is given as a pattern with its flags; SCALE and SAT follow with one RoundTo in RNE
(R126, R134). -/
def approxOp (s : State) (f : VecForm) (g : Lane → Nat × BitVec 6) : Out State :=
  laneOp s f fun _ x l =>
    let m := ModWord.get f.m
    let y := g (modPattern m ((x.get 0).lane l))
    let r := finishFp .f32 .rne (scaleOf m.scale) m.sat (Fp.decode .f32 y.1)
    (r.1, y.2 ||| r.2)

/-- VRRT's value as a pattern: exact (R69). -/
def rrtFp (x : Lane) : Nat × BitVec 6 :=
  let y := reduceFp (Fp.decode .f32 x.toNat)
  let r := roundTo .f32 .rne y.1
  (r.1, y.2 ||| r.2)

/-- VFADD (R124). -/
def execVfadd (m : Option ModWord) (k : Bool) (d : VReg) (a b : Src) (s : State) : Out State :=
  floatOp s (.arith .float m k d [a, b] false) (fun md a b _ => sumFp md [a, b])

/-- VFSUB (R124). -/
def execVfsub (m : Option ModWord) (k : Bool) (d : VReg) (a b : Src) (s : State) : Out State :=
  floatOp s (.arith .float m k d [a, b] false) (fun md a b _ => sumFp md [a, b.flip])

/-- VFMUL (R124). -/
def execVfmul (m : Option ModWord) (k : Bool) (d : VReg) (a b : Src) (s : State) : Out State :=
  floatOp s (.arith .float m k d [a, b] false) (fun _ a b _ => mulFp a b)

/-- VFMA (R124). -/
def execVfma (m : Option ModWord) (k : Bool) (d : VReg) (a b : Src) (s : State) : Out State :=
  floatOp s (.arith .float m k d [a, b] true) fmaFp

/-- VFMIN (R124). -/
def execVfmin (m : Option ModWord) (k : Bool) (d : VReg) (a b : Src) (s : State) : Out State :=
  floatOp s (.arith .float m k d [a, b] false) (fun _ a b _ => (minFp a b, 0))

/-- VFMAX (R124). -/
def execVfmax (m : Option ModWord) (k : Bool) (d : VReg) (a b : Src) (s : State) : Out State :=
  floatOp s (.arith .float m k d [a, b] false) (fun _ a b _ => (maxFp a b, 0))

/-- VFCMP: no flag (R125). -/
def execVfcmp (mw : Option ModWord) (c : BitVec 3) (q : BitVec 4) (a b : Src) (s : State) : Out State :=
  compareOp s (.compare mw q a b) fun _ x l =>
    let m := ModWord.get mw
    condFp c (modOperand m .f32 false ((x.get 0).lane l).toNat) (modOperand m .f32 true ((x.get 1).lane l).toNat)

/-- VRCP (R126). -/
def execVrcp (m : Option ModWord) (k : Bool) (d : VReg) (a : Src) (s : State) : Out State :=
  approxOp s (.arith .float m k d [a] false) rcpFp

/-- VRSQ (R126). -/
def execVrsq (m : Option ModWord) (k : Bool) (d : VReg) (a : Src) (s : State) : Out State :=
  approxOp s (.arith .float m k d [a] false) rsqFp

/-- VSQRT (R126). -/
def execVsqrt (m : Option ModWord) (k : Bool) (d : VReg) (a : Src) (s : State) : Out State :=
  funOp s (.arith .float m k d [a] false) sqrtFp

/-- VFRACT (R126). -/
def execVfract (m : Option ModWord) (k : Bool) (d : VReg) (a : Src) (s : State) : Out State :=
  funOp s (.arith .float m k d [a] false) fractFp

/-- VFLOOR (R126). -/
def execVfloor (m : Option ModWord) (k : Bool) (d : VReg) (a : Src) (s : State) : Out State :=
  funOp s (.arith .float m k d [a] false) (fun x => (floorFp x, 0))

/-- VRRT (R69, R134). -/
def execVrrt (m : Option ModWord) (k : Bool) (d : VReg) (a : Src) (s : State) : Out State :=
  approxOp s (.arith .float m k d [a] false) rrtFp

/-- VSINT (R70, R134). -/
def execVsint (m : Option ModWord) (k : Bool) (d : VReg) (a : Src) (s : State) : Out State :=
  approxOp s (.arith .float m k d [a] false) sinFp

/-- VCOST (R70, R134). -/
def execVcost (m : Option ModWord) (k : Bool) (d : VReg) (a : Src) (s : State) : Out State :=
  approxOp s (.arith .float m k d [a] false) cosFp

/-- VEXP2 (R70, R134). -/
def execVexp2 (m : Option ModWord) (k : Bool) (d : VReg) (a : Src) (s : State) : Out State :=
  approxOp s (.arith .float m k d [a] false) exp2Fp

/-- VLOG2 (R70, R134). -/
def execVlog2 (m : Option ModWord) (k : Bool) (d : VReg) (a : Src) (s : State) : Out State :=
  approxOp s (.arith .float m k d [a] false) log2Fp

/-- VHADD2.bf16 (R127). -/
def execVhadd2Bf16 (m : Option ModWord) (k : Bool) (d : VReg) (a b : Src) (s : State) : Out State :=
  halfOp s (.arith .float m k d [a, b] false) .bf16 (fun md a b _ => sumFp md [a, b])

/-- VHADD2.f16 (R127). -/
def execVhadd2F16 (m : Option ModWord) (k : Bool) (d : VReg) (a b : Src) (s : State) : Out State :=
  halfOp s (.arith .float m k d [a, b] false) .f16 (fun md a b _ => sumFp md [a, b])

/-- VHMUL2.bf16 (R127). -/
def execVhmul2Bf16 (m : Option ModWord) (k : Bool) (d : VReg) (a b : Src) (s : State) : Out State :=
  halfOp s (.arith .float m k d [a, b] false) .bf16 (fun _ a b _ => mulFp a b)

/-- VHMUL2.f16 (R127). -/
def execVhmul2F16 (m : Option ModWord) (k : Bool) (d : VReg) (a b : Src) (s : State) : Out State :=
  halfOp s (.arith .float m k d [a, b] false) .f16 (fun _ a b _ => mulFp a b)

/-- VHFMA2.bf16 (R127). -/
def execVhfma2Bf16 (m : Option ModWord) (k : Bool) (d : VReg) (a b : Src) (s : State) : Out State :=
  halfOp s (.arith .float m k d [a, b] true) .bf16 fmaFp

/-- VHFMA2.f16 (R127). -/
def execVhfma2F16 (m : Option ModWord) (k : Bool) (d : VReg) (a b : Src) (s : State) : Out State :=
  halfOp s (.arith .float m k d [a, b] true) .f16 fmaFp

/-- VDOT2.bf16 (R128). -/
def execVdot2Bf16 (m : Option ModWord) (k : Bool) (d : VReg) (a b : Src) (s : State) : Out State :=
  dotOp s (.arith .float m k d [a, b] true) .bf16

/-- VDOT2.f16 (R128). -/
def execVdot2F16 (m : Option ModWord) (k : Bool) (d : VReg) (a b : Src) (s : State) : Out State :=
  dotOp s (.arith .float m k d [a, b] true) .f16

/-! ### VCVT (R130 to R133) -/

/-- The elements that one lane converts (R130). -/
def convCount (dst src : Num) : Nat :=
  if 32 ≤ dst.width ∨ 32 ≤ src.width then 1 else min dst.perLane src.perLane

/-- A lane converted: element j of the source becomes element j of the destination, other bits 0 (R130). -/
def convLane (m : ModWord) (dst src : Num) (v : Nat) : Nat × BitVec 6 :=
  (List.range (convCount dst src)).foldl (fun acc j =>
    let r := convert dst src (Rnd.of m.rnd) (scaleOf m.scale) m.sat (v / 2 ^ (src.width * j) % 2 ^ src.width)
    (acc.1 + r.1 * 2 ^ (dst.width * j), acc.2 ||| r.2)) (0, 0)

/-- VCVT (R130). -/
def execVcvt (m : Option ModWord) (k : Bool) (d : VReg) (a : Src) (e sf : BitVec 4) (s : State) : Out State :=
  vectorOp s (.convert m k d a e sf) fun c w x =>
    let f := VecForm.convert m k d a e sf
    let dst := Num.of e
    let src := Num.of sf
    let val := fun l => if cvtWide sf then (lane64 x.wide l).toNat else ((x.get 0).lane l).toNat
    let rs := (List.range w.width).map (fun l =>
      if c.f.mask.getLsbD l then convLane (ModWord.get m) dst src (val l) else (0, 0))
    { lanes := rs.map (fun r => BitVec.ofNat 32 r.1)
      hi := if cvtWide e then rs.map (fun r => BitVec.ofNat 32 (r.1 / 2 ^ 32)) else []
      flags := rs.foldl (fun fl r => fl ||| r.2) 0
      poison := f.poison x }

end Sys2Proof.Machine
end

