-- ==== Sys2Proof/Machine/VecInt.lean ====
section
/-! DEFINITION. Vector integer and packed INT16 instructions and integer compares (R119 to R123). -/

namespace Sys2Proof.Machine

/-- How an operand is read (R119). -/
inductive IntRead where
  | signed | unsigned | untyped
  deriving DecidableEq, Repr

/-- A 32-bit pattern as an integer; an untyped one is unsigned under SAT 0b10 (R119). -/
def IntRead.read (r : IntRead) (sat : BitVec 2) (p : Lane) : Int :=
  match r with
  | .signed => p.toInt
  | .unsigned => p.toNat
  | .untyped => if sat = 2 then p.toNat else p.toInt

/-- An exact negation where a modifier asks for it. -/
def negIf (b : Bool) (x : Int) : Int := if b then -x else x

/-- ABS, then NEG, of a compare's operand (R121). -/
def modInt (abs neg : Bool) (x : Int) : Int := negIf neg (if abs then (x.natAbs : Int) else x)

/-- An integer instruction of sources a and b: d := Fit(32, g(X, Y, c pattern)) (R119). -/
def intOp (s : State) (f : VecForm) (r : IntRead) (g : BitVec 2 → Int → Int → Lane → Int) : Out State :=
  laneOp s f fun _ x l =>
    let m := ModWord.get f.m
    fitInt 32 m.sat (g m.sat (negIf m.nega (r.read m.sat ((x.get 0).lane l)))
      (negIf m.negb (r.read m.sat ((x.get 1).lane l))) (x.third.lane l))

/-- The immediate form: Y from the immediate (R119, R120). -/
def intOpImm (s : State) (f : VecForm) (r : IntRead) (y : Lane) (g : Int → Int → Int) : Out State :=
  laneOp s f fun _ x l =>
    let m := ModWord.get f.m
    fitInt 32 m.sat (g (negIf m.nega (r.read m.sat ((x.get 0).lane l))) (negIf m.negb (r.read m.sat y)))

/-- A shift by an immediate amount (R120). -/
def shiftImm (s : State) (f : VecForm) (r : IntRead) (n : Nat) (g : Int → Nat → Int) : Out State :=
  laneOp s f fun _ x l =>
    let m := ModWord.get f.m
    fitInt 32 m.sat (g (negIf m.nega (r.read m.sat ((x.get 0).lane l))) n)

/-- A bitwise operation on the infinite two's-complement forms of integers that lie well inside 40 bits (R119). -/
def bitwise (g : BitVec 40 → BitVec 40 → BitVec 40) (x y : Int) : Int :=
  (g (BitVec.ofInt 40 x) (BitVec.ofInt 40 y)).toInt

/-- The shift amount that Y gives: bits [4:0] of its pattern (R120). -/
def shiftOf (y : Int) : Nat := (y % 32).toNat

/-- A shift to the left, an arithmetic one to the right, and the rounding one, of exact integers (R120). -/
def shiftLeft (x : Int) (n : Nat) : Int := x * 2 ^ n
def shiftRight (x : Int) (n : Nat) : Int := x / 2 ^ n
def shiftRound (x : Int) (n : Nat) : Int := if n = 0 then x else (x + 2 ^ (n - 1)) / 2 ^ n

/-- The two signed 16-bit elements of a lane (R50). -/
def half16 (p : Lane) (j : Nat) : Int := signedOf 16 (p.toNat / 2 ^ (16 * j))

/-- A packed instruction: each pair of elements fitted into 16 bits (R122). -/
def packedOp (s : State) (f : VecForm) (g : Int → Int → Int) : Out State :=
  laneOp s f fun _ x l =>
    let m := ModWord.get f.m
    let r := fun j => fitInt 16 m.sat (g (negIf m.nega (half16 ((x.get 0).lane l) j))
      (negIf m.negb (half16 ((x.get 1).lane l) j)))
    ((r 0).1 + 65536 * (r 1).1, (r 0).2 ||| (r 1).2)

/-- The conditions of VCMP (R121); codes 6 and 7 are refused at decode. -/
def condInt (c : BitVec 3) (x y : Int) : Bool :=
  match c.toNat with
  | 0 => x == y
  | 1 => x != y
  | 2 => decide (x < y)
  | 3 => decide (x ≤ y)
  | 4 => decide (y < x)
  | _ => decide (y ≤ x)

/-- VCMP (R121). -/
def intCompare (s : State) (mw : Option ModWord) (c : BitVec 3) (q : BitVec 4) (a b : Src) (r : IntRead) : Out State :=
  compareOp s (.compare mw q a b) fun _ x l =>
    let m := ModWord.get mw
    condInt c (modInt m.absa m.nega (r.read 0 ((x.get 0).lane l))) (modInt m.absb m.negb (r.read 0 ((x.get 1).lane l)))

/-- VADD (R120). -/
def execVadd (m : Option ModWord) (k : Bool) (d : VReg) (a b : Src) (s : State) : Out State :=
  intOp s (.arith .int m k d [a, b] false) .untyped (fun _ x y _ => x + y)

/-- VSUB (R120). -/
def execVsub (m : Option ModWord) (k : Bool) (d : VReg) (a b : Src) (s : State) : Out State :=
  intOp s (.arith .int m k d [a, b] false) .untyped (fun _ x y _ => x - y)

/-- VMUL (R120). -/
def execVmul (m : Option ModWord) (k : Bool) (d : VReg) (a b : Src) (s : State) : Out State :=
  intOp s (.arith .int m k d [a, b] false) .untyped (fun _ x y _ => x * y)

/-- VMULH.i32 (R120). -/
def execVmulhI32 (m : Option ModWord) (k : Bool) (d : VReg) (a b : Src) (s : State) : Out State :=
  intOp s (.arith .int m k d [a, b] false) .signed (fun _ x y _ => x * y / 2 ^ 32)

/-- VMULH.z32 (R120). -/
def execVmulhZ32 (m : Option ModWord) (k : Bool) (d : VReg) (a b : Src) (s : State) : Out State :=
  intOp s (.arith .int m k d [a, b] false) .unsigned (fun _ x y _ => x * y / 2 ^ 32)

/-- VMAD (R118, R120). -/
def execVmad (m : Option ModWord) (k : Bool) (d : VReg) (a b : Src) (s : State) : Out State :=
  intOp s (.arith .int m k d [a, b] true) .untyped (fun sat x y c => x * y + IntRead.untyped.read sat c)

/-- VMIN.i32 (R120). -/
def execVminI32 (m : Option ModWord) (k : Bool) (d : VReg) (a b : Src) (s : State) : Out State :=
  intOp s (.arith .int m k d [a, b] false) .signed (fun _ x y _ => min x y)

/-- VMIN.z32 (R120). -/
def execVminZ32 (m : Option ModWord) (k : Bool) (d : VReg) (a b : Src) (s : State) : Out State :=
  intOp s (.arith .int m k d [a, b] false) .unsigned (fun _ x y _ => min x y)

/-- VMAX.i32 (R120). -/
def execVmaxI32 (m : Option ModWord) (k : Bool) (d : VReg) (a b : Src) (s : State) : Out State :=
  intOp s (.arith .int m k d [a, b] false) .signed (fun _ x y _ => max x y)

/-- VMAX.z32 (R120). -/
def execVmaxZ32 (m : Option ModWord) (k : Bool) (d : VReg) (a b : Src) (s : State) : Out State :=
  intOp s (.arith .int m k d [a, b] false) .unsigned (fun _ x y _ => max x y)

/-- VAND (R120). -/
def execVand (m : Option ModWord) (k : Bool) (d : VReg) (a b : Src) (s : State) : Out State :=
  intOp s (.arith .int m k d [a, b] false) .untyped (fun _ x y _ => bitwise (· &&& ·) x y)

/-- VOR (R120). -/
def execVor (m : Option ModWord) (k : Bool) (d : VReg) (a b : Src) (s : State) : Out State :=
  intOp s (.arith .int m k d [a, b] false) .untyped (fun _ x y _ => bitwise (· ||| ·) x y)

/-- VXOR (R120). -/
def execVxor (m : Option ModWord) (k : Bool) (d : VReg) (a b : Src) (s : State) : Out State :=
  intOp s (.arith .int m k d [a, b] false) .untyped (fun _ x y _ => bitwise (· ^^^ ·) x y)

/-- VSHL (R120). -/
def execVshl (m : Option ModWord) (k : Bool) (d : VReg) (a b : Src) (s : State) : Out State :=
  intOp s (.arith .int m k d [a, b] false) .untyped (fun _ x y _ => shiftLeft x (shiftOf y))

/-- VSHR (R120). -/
def execVshr (m : Option ModWord) (k : Bool) (d : VReg) (a b : Src) (s : State) : Out State :=
  intOp s (.arith .int m k d [a, b] false) .unsigned (fun _ x y _ => shiftRight x (shiftOf y))

/-- VSRA (R120). -/
def execVsra (m : Option ModWord) (k : Bool) (d : VReg) (a b : Src) (s : State) : Out State :=
  intOp s (.arith .int m k d [a, b] false) .signed (fun _ x y _ => shiftRight x (shiftOf y))

/-- VSHRR: a half rounds toward +infinity (R120). -/
def execVshrr (m : Option ModWord) (k : Bool) (d : VReg) (a b : Src) (s : State) : Out State :=
  intOp s (.arith .int m k d [a, b] false) .signed (fun _ x y _ => shiftRound x (shiftOf y))

/-- VSEL (R118, R120). -/
def execVsel (m : Option ModWord) (k : Bool) (d : VReg) (a b : Src) (s : State) : Out State :=
  intOp s (.arith .int m k d [a, b] true) .untyped (fun _ x y c => if c ≠ 0 then x else y)

/-- VCMP.i32 (R121). -/
def execVcmpI32 (m : Option ModWord) (c : BitVec 3) (q : BitVec 4) (a b : Src) (s : State) : Out State :=
  intCompare s m c q a b .signed

/-- VCMP.z32 (R121). -/
def execVcmpZ32 (m : Option ModWord) (c : BitVec 3) (q : BitVec 4) (a b : Src) (s : State) : Out State :=
  intCompare s m c q a b .unsigned

/-- VADD2.i16 (R122). -/
def execVadd2I16 (m : Option ModWord) (k : Bool) (d : VReg) (a b : Src) (s : State) : Out State :=
  packedOp s (.arith .int m k d [a, b] false) (· + ·)

/-- VSUB2.i16 (R122). -/
def execVsub2I16 (m : Option ModWord) (k : Bool) (d : VReg) (a b : Src) (s : State) : Out State :=
  packedOp s (.arith .int m k d [a, b] false) (· - ·)

/-- VMAC2.i16: one exact sum, one fit (R123). -/
def execVmac2I16 (m : Option ModWord) (k : Bool) (d : VReg) (a b : Src) (s : State) : Out State :=
  laneOp s (.arith .int m k d [a, b] true) fun _ x l =>
    let w := ModWord.get m
    let p := fun j => negIf w.nega (half16 ((x.get 0).lane l) j) * negIf w.negb (half16 ((x.get 1).lane l) j)
    fitInt 32 w.sat (IntRead.untyped.read w.sat (x.third.lane l) + p 0 + p 1)

/-- VADD with an immediate (R120). -/
def execVaddVi (m : Option ModWord) (k : Bool) (d : VReg) (a : Src) (i : BitVec 8) (s : State) : Out State :=
  intOpImm s (.arith .int m k d [a] false) .untyped (i.signExtend 32) (fun x y => x + y)

/-- VAND with an immediate (R120). -/
def execVandVi (m : Option ModWord) (k : Bool) (d : VReg) (a : Src) (i : BitVec 8) (s : State) : Out State :=
  intOpImm s (.arith .int m k d [a] false) .untyped (i.signExtend 32) (bitwise (· &&& ·))

/-- VOR with an immediate (R120). -/
def execVorVi (m : Option ModWord) (k : Bool) (d : VReg) (a : Src) (i : BitVec 8) (s : State) : Out State :=
  intOpImm s (.arith .int m k d [a] false) .untyped (i.signExtend 32) (bitwise (· ||| ·))

/-- VXOR with an immediate (R120). -/
def execVxorVi (m : Option ModWord) (k : Bool) (d : VReg) (a : Src) (i : BitVec 8) (s : State) : Out State :=
  intOpImm s (.arith .int m k d [a] false) .untyped (i.signExtend 32) (bitwise (· ^^^ ·))

/-- VSHL with an immediate (R120). -/
def execVshlVi (m : Option ModWord) (k : Bool) (d : VReg) (a : Src) (i : BitVec 5) (s : State) : Out State :=
  shiftImm s (.arith .int m k d [a] false) .untyped i.toNat shiftLeft

/-- VSHR with an immediate (R120). -/
def execVshrVi (m : Option ModWord) (k : Bool) (d : VReg) (a : Src) (i : BitVec 5) (s : State) : Out State :=
  shiftImm s (.arith .int m k d [a] false) .unsigned i.toNat shiftRight

/-- VSRA with an immediate (R120). -/
def execVsraVi (m : Option ModWord) (k : Bool) (d : VReg) (a : Src) (i : BitVec 5) (s : State) : Out State :=
  shiftImm s (.arith .int m k d [a] false) .signed i.toNat shiftRight

/-- VSHRR with an immediate (R120). -/
def execVshrrVi (m : Option ModWord) (k : Bool) (d : VReg) (a : Src) (i : BitVec 5) (s : State) : Out State :=
  shiftImm s (.arith .int m k d [a] false) .signed i.toNat shiftRound

end Sys2Proof.Machine
end

