-- ==== Sys2Proof/Machine/Dictionary.lean ====
section
/-! DEFINITION. DICTIONARY_PARCEL (R85): the entry of the grid's dictionary executes as if it stood at the parcel's
address. -/

namespace Sys2Proof.Machine

/-- The meaning of a dictionary entry; an entry is a wave instruction and no dictionary parcel (R85). -/
def execEntry (i : Instr) (s : State) : Option (Out State) :=
  match i with
  | .sadd d a b => some (execSadd d a b s)
  | .ssub d a b => some (execSsub d a b s)
  | .smul d a b => some (execSmul d a b s)
  | .smulh d a b => some (execSmulh d a b s)
  | .smulhz d a b => some (execSmulhz d a b s)
  | .sdiv d a b => some (execSdiv d a b s)
  | .sdivz d a b => some (execSdivz d a b s)
  | .srem d a b => some (execSrem d a b s)
  | .sremz d a b => some (execSremz d a b s)
  | .sand d a b => some (execSand d a b s)
  | .sor d a b => some (execSor d a b s)
  | .sxor d a b => some (execSxor d a b s)
  | .sshl d a b => some (execSshl d a b s)
  | .sshr d a b => some (execSshr d a b s)
  | .ssra d a b => some (execSsra d a b s)
  | .srol d a b => some (execSrol d a b s)
  | .smin d a b => some (execSmin d a b s)
  | .smax d a b => some (execSmax d a b s)
  | .sminz d a b => some (execSminz d a b s)
  | .smaxz d a b => some (execSmaxz d a b s)
  | .sclz d a => some (execSclz d a s)
  | .spopc d a => some (execSpopc d a s)
  | .sbfx d a b => some (execSbfx d a b s)
  | .sbfi d a b => some (execSbfi d a b s)
  | .ssel d a b => some (execSsel d a b s)
  | .scmp a b => some (execScmp a b s)
  | .jmpr a => some (execJmpr a s)
  | .ret a => some (execRet a s)
  | .maskget d => some (execMaskget d s)
  | .maskset a => some (execMaskset a s)
  | .mand a => some (execMand a s)
  | .mandn a => some (execMandn a s)
  | .mor a => some (execMor a s)
  | .mpopc d => some (execMpopc d s)
  | .saddi d a imm => some (execSaddi d a imm s)
  | .scmpi a imm => some (execScmpi a imm s)
  | .sandi d a imm => some (execSandi d a imm s)
  | .sori d a imm => some (execSori d a imm s)
  | .sxori d a imm => some (execSxori d a imm s)
  | .sshli d a imm => some (execSshli d a imm s)
  | .sshri d a imm => some (execSshri d a imm s)
  | .ssrai d a imm => some (execSsrai d a imm s)
  | .slui d imm => some (execSlui d imm s)
  | .slea d a b h => some (execSlea d a b h s)
  | .br o => some (execBr o s)
  | .call o => some (execCall o s)
  | .bc c o => some (execBc c o s)
  | .bmz o => some (execBmz o s)
  | .bmnz o => some (execBmnz o s)
  | .calli d v => some (execCalli d v s)
  | .srd d n => some (execSrd d n s)
  | .swr a n => some (execSwr a n s)
  | .sldB d a imm => some (execSldB d a imm s)
  | .sldH d a imm => some (execSldH d a imm s)
  | .sldW d a imm => some (execSldW d a imm s)
  | .sldD d a imm => some (execSldD d a imm s)
  | .sstB d a imm => some (execSstB d a imm s)
  | .sstH d a imm => some (execSstH d a imm s)
  | .sstW d a imm => some (execSstW d a imm s)
  | .sstD d a imm => some (execSstD d a imm s)
  | .split a o => some (execSplit a o s)
  | .evbind k a o => some (execEvbind k a o s)
  | .waitany d a => some (execWaitany d a s)
  | .join a => some (execJoin a s)
  | .yield => some (execYield s)
  | .endw => some (execEndw s)
  | .launch a => some (execLaunch a s)
  | .carve a b => some (execCarve a b s)
  | .bar => some (execBar s)
  | .nbarArv a k => some (execNbarArv a k s)
  | .nbarWt k => some (execNbarWt k s)
  | .mbxSend a k => some (execMbxSend a k s)
  | .mbxSendRel a k => some (execMbxSendRel a k s)
  | .evmask d a => some (execEvmask d a s)
  | .evpoll d => some (execEvpoll d s)
  | .evclr a => some (execEvclr a s)
  | .fence sc => some (execFence sc s)
  | .fenceAcq sc => some (execFenceAcq sc s)
  | .fenceRel sc => some (execFenceRel sc s)
  | .racq a sc => some (execRacq a sc s)
  | .rfence => some (execRfence s)
  | .pref a => some (execPref a s)
  | .cflush a b => some (execCflush a b s)
  | .cinv a b => some (execCinv a b s)
  | .mscpin d a b => some (execMscpin d a b s)
  | .mscunpin a => some (execMscunpin a s)
  | .satom d a b o sc => some (execSatom d a b o sc s)
  | .satomAcq d a b o sc => some (execSatomAcq d a b o sc s)
  | .satomRel d a b o sc => some (execSatomRel d a b o sc s)
  | .satomAcqrel d a b o sc => some (execSatomAcqrel d a b o sc s)
  | .xcopy d a r => some (execXcopy d a r s)
  | .xgath d a r => some (execXgath d a r s)
  | .xred d a r => some (execXred d a r s)
  | .xfill d a r => some (execXfill d a r s)
  | .bclose d c => some (execBclose d c s)
  | .bwait a c => some (execBwait a c s)
  | .cbinit a k => some (execCbinit a k s)
  | .cbacq d k => some (execCbacq d k s)
  | .cbcommit a k => some (execCbcommit a k s)
  | .cbwait a k => some (execCbwait a k s)
  | .cbrel a k => some (execCbrel a k s)
  | .mma f a k => some (execMma f a k s)
  | .mmaP f a k => some (execMmaP f a k s)
  | .mzero k => some (execMzero k s)
  | .nbzero d a r => some (execNbzero d a r s)
  | .nbcopy d a r => some (execNbcopy d a r s)
  | .nbaxpy d a r => some (execNbaxpy d a r s)
  | .nbdot d a r => some (execNbdot d a r s)
  | .nbscal d a r => some (execNbscal d a r s)
  | .bfence => some (execBfence s)
  | .xar d a r => some (execXar d a r s)
  | .xag d a r => some (execXag d a r s)
  | .xrs d a r => some (execXrs d a r s)
  | .xbcst d a r => some (execXbcst d a r s)
  | .trap c => some (execTrap c s)
  | .sysc c => some (execSysc c s)
  | .brk c => some (execBrk c s)
  | .tfence => some (execTfence s)
  | .tret => some (execTret s)
  | .causeclr b => some (execCauseclr b s)
  | .vadd m k d a b => some (execVadd m k d a b s)
  | .vsub m k d a b => some (execVsub m k d a b s)
  | .vmul m k d a b => some (execVmul m k d a b s)
  | .vmulhI32 m k d a b => some (execVmulhI32 m k d a b s)
  | .vmulhZ32 m k d a b => some (execVmulhZ32 m k d a b s)
  | .vmad m k d a b => some (execVmad m k d a b s)
  | .vminI32 m k d a b => some (execVminI32 m k d a b s)
  | .vminZ32 m k d a b => some (execVminZ32 m k d a b s)
  | .vmaxI32 m k d a b => some (execVmaxI32 m k d a b s)
  | .vmaxZ32 m k d a b => some (execVmaxZ32 m k d a b s)
  | .vand m k d a b => some (execVand m k d a b s)
  | .vor m k d a b => some (execVor m k d a b s)
  | .vxor m k d a b => some (execVxor m k d a b s)
  | .vshl m k d a b => some (execVshl m k d a b s)
  | .vshr m k d a b => some (execVshr m k d a b s)
  | .vsra m k d a b => some (execVsra m k d a b s)
  | .vshrr m k d a b => some (execVshrr m k d a b s)
  | .vsel m k d a b => some (execVsel m k d a b s)
  | .vcmpI32 m c q a b => some (execVcmpI32 m c q a b s)
  | .vcmpZ32 m c q a b => some (execVcmpZ32 m c q a b s)
  | .vadd2I16 m k d a b => some (execVadd2I16 m k d a b s)
  | .vsub2I16 m k d a b => some (execVsub2I16 m k d a b s)
  | .vmac2I16 m k d a b => some (execVmac2I16 m k d a b s)
  | .vaddVi m k d a imm => some (execVaddVi m k d a imm s)
  | .vandVi m k d a imm => some (execVandVi m k d a imm s)
  | .vorVi m k d a imm => some (execVorVi m k d a imm s)
  | .vxorVi m k d a imm => some (execVxorVi m k d a imm s)
  | .vshlVi m k d a imm => some (execVshlVi m k d a imm s)
  | .vshrVi m k d a imm => some (execVshrVi m k d a imm s)
  | .vsraVi m k d a imm => some (execVsraVi m k d a imm s)
  | .vshrrVi m k d a imm => some (execVshrrVi m k d a imm s)
  | .vfadd m k d a b => some (execVfadd m k d a b s)
  | .vfsub m k d a b => some (execVfsub m k d a b s)
  | .vfmul m k d a b => some (execVfmul m k d a b s)
  | .vfma m k d a b => some (execVfma m k d a b s)
  | .vfmin m k d a b => some (execVfmin m k d a b s)
  | .vfmax m k d a b => some (execVfmax m k d a b s)
  | .vfcmp m c q a b => some (execVfcmp m c q a b s)
  | .vrcp m k d a => some (execVrcp m k d a s)
  | .vrsq m k d a => some (execVrsq m k d a s)
  | .vsqrt m k d a => some (execVsqrt m k d a s)
  | .vfract m k d a => some (execVfract m k d a s)
  | .vfloor m k d a => some (execVfloor m k d a s)
  | .vrrt m k d a => some (execVrrt m k d a s)
  | .vsint m k d a => some (execVsint m k d a s)
  | .vcost m k d a => some (execVcost m k d a s)
  | .vexp2 m k d a => some (execVexp2 m k d a s)
  | .vlog2 m k d a => some (execVlog2 m k d a s)
  | .vhadd2Bf16 m k d a b => some (execVhadd2Bf16 m k d a b s)
  | .vhadd2F16 m k d a b => some (execVhadd2F16 m k d a b s)
  | .vhmul2Bf16 m k d a b => some (execVhmul2Bf16 m k d a b s)
  | .vhmul2F16 m k d a b => some (execVhmul2F16 m k d a b s)
  | .vhfma2Bf16 m k d a b => some (execVhfma2Bf16 m k d a b s)
  | .vhfma2F16 m k d a b => some (execVhfma2F16 m k d a b s)
  | .vdot2Bf16 m k d a b => some (execVdot2Bf16 m k d a b s)
  | .vdot2F16 m k d a b => some (execVdot2F16 m k d a b s)
  | .vcvt m k d a e sc => some (execVcvt m k d a e sc s)
  | .vslideUp m k d a u n => some (execVslideUp m k d a u n s)
  | .vslideDn m k d a u n => some (execVslideDn m k d a u n s)
  | .vswapp k d a => some (execVswapp k d a s)
  | .vperm k d a b => some (execVperm k d a b s)
  | .vbcast k d a b => some (execVbcast k d a b s)
  | .vred m k d a o f => some (execVred m k d a o f s)
  | .vldf m d a => some (execVldf m d a s)
  | .vstf m d a => some (execVstf m d a s)
  | .vld m d a n => some (execVld m d a n s)
  | .vst m d a n => some (execVst m d a n s)
  | .vlds m d a w => some (execVlds m d a w s)
  | .vsts m d a w => some (execVsts m d a w s)
  | .vatom m d a n => some (execVatom m d a n s)
  | .mrd k d a t => some (execMrd k d a t s)
  | .mwr d a t => some (execMwr d a t s)
  | .grtag k d a g => some (execGrtag k d a g s)
  | .grchk a => some (execGrchk a s)
  | .grdil k d a g => some (execGrdil k d a g s)
  | .grlim g => some (execGrlim g s)
  | _ => none

/-- DICTIONARY_PARCEL (R85, R86): the entry in the core's dictionary RAM; an index outside the grid's table, or an entry
that is no instruction, raises ILLOP. -/
def execDictionaryParcel (i : BitVec 10) (s : State) : Out State :=
  match s.ctx? with
  | none => .fault .noFragment
  | some c =>
    match s.dictWord c.w c.g i.toNat with
    | some e =>
      (match decodeEntry e with
       | .ok j => (execEntry j s).getD (.next (c.ended.raise s Cause.illop 0))
       | .error _ => .next (c.ended.raise s Cause.illop 0))
    | none => .next (c.ended.raise s Cause.illop 0)

end Sys2Proof.Machine
end

