-- ==== Sys2Proof/Machine/Dispatch.lean ====
section
/-! DEFINITION. The dispatch: one arm per constructor of Instr, each one call of its meaning. -/

namespace Sys2Proof.Machine

def exec (i : Instr) (s : State) : Host.Outcome State Fault Refusal :=
  match i with
  | .sadd d a b => Sys2Proof.Machine.execSadd d a b s
  | .ssub d a b => Sys2Proof.Machine.execSsub d a b s
  | .smul d a b => Sys2Proof.Machine.execSmul d a b s
  | .smulh d a b => Sys2Proof.Machine.execSmulh d a b s
  | .smulhz d a b => Sys2Proof.Machine.execSmulhz d a b s
  | .sdiv d a b => Sys2Proof.Machine.execSdiv d a b s
  | .sdivz d a b => Sys2Proof.Machine.execSdivz d a b s
  | .srem d a b => Sys2Proof.Machine.execSrem d a b s
  | .sremz d a b => Sys2Proof.Machine.execSremz d a b s
  | .sand d a b => Sys2Proof.Machine.execSand d a b s
  | .sor d a b => Sys2Proof.Machine.execSor d a b s
  | .sxor d a b => Sys2Proof.Machine.execSxor d a b s
  | .sshl d a b => Sys2Proof.Machine.execSshl d a b s
  | .sshr d a b => Sys2Proof.Machine.execSshr d a b s
  | .ssra d a b => Sys2Proof.Machine.execSsra d a b s
  | .srol d a b => Sys2Proof.Machine.execSrol d a b s
  | .smin d a b => Sys2Proof.Machine.execSmin d a b s
  | .smax d a b => Sys2Proof.Machine.execSmax d a b s
  | .sminz d a b => Sys2Proof.Machine.execSminz d a b s
  | .smaxz d a b => Sys2Proof.Machine.execSmaxz d a b s
  | .sclz d a => Sys2Proof.Machine.execSclz d a s
  | .spopc d a => Sys2Proof.Machine.execSpopc d a s
  | .sbfx d a b => Sys2Proof.Machine.execSbfx d a b s
  | .sbfi d a b => Sys2Proof.Machine.execSbfi d a b s
  | .ssel d a b => Sys2Proof.Machine.execSsel d a b s
  | .scmp a b => Sys2Proof.Machine.execScmp a b s
  | .jmpr a => Sys2Proof.Machine.execJmpr a s
  | .ret a => Sys2Proof.Machine.execRet a s
  | .maskget d => Sys2Proof.Machine.execMaskget d s
  | .maskset a => Sys2Proof.Machine.execMaskset a s
  | .mand a => Sys2Proof.Machine.execMand a s
  | .mandn a => Sys2Proof.Machine.execMandn a s
  | .mor a => Sys2Proof.Machine.execMor a s
  | .mpopc d => Sys2Proof.Machine.execMpopc d s
  | .saddi d a imm => Sys2Proof.Machine.execSaddi d a imm s
  | .scmpi a imm => Sys2Proof.Machine.execScmpi a imm s
  | .sandi d a imm => Sys2Proof.Machine.execSandi d a imm s
  | .sori d a imm => Sys2Proof.Machine.execSori d a imm s
  | .sxori d a imm => Sys2Proof.Machine.execSxori d a imm s
  | .sshli d a imm => Sys2Proof.Machine.execSshli d a imm s
  | .sshri d a imm => Sys2Proof.Machine.execSshri d a imm s
  | .ssrai d a imm => Sys2Proof.Machine.execSsrai d a imm s
  | .slui d imm => Sys2Proof.Machine.execSlui d imm s
  | .slea d a b h => Sys2Proof.Machine.execSlea d a b h s
  | .br o => Sys2Proof.Machine.execBr o s
  | .call o => Sys2Proof.Machine.execCall o s
  | .bc c o => Sys2Proof.Machine.execBc c o s
  | .bmz o => Sys2Proof.Machine.execBmz o s
  | .bmnz o => Sys2Proof.Machine.execBmnz o s
  | .calli d v => Sys2Proof.Machine.execCalli d v s
  | .srd d n => Sys2Proof.Machine.execSrd d n s
  | .swr a n => Sys2Proof.Machine.execSwr a n s
  | .sldB d a imm => Sys2Proof.Machine.execSldB d a imm s
  | .sldH d a imm => Sys2Proof.Machine.execSldH d a imm s
  | .sldW d a imm => Sys2Proof.Machine.execSldW d a imm s
  | .sldD d a imm => Sys2Proof.Machine.execSldD d a imm s
  | .sstB d a imm => Sys2Proof.Machine.execSstB d a imm s
  | .sstH d a imm => Sys2Proof.Machine.execSstH d a imm s
  | .sstW d a imm => Sys2Proof.Machine.execSstW d a imm s
  | .sstD d a imm => Sys2Proof.Machine.execSstD d a imm s
  | .split a o => Sys2Proof.Machine.execSplit a o s
  | .evbind k a o => Sys2Proof.Machine.execEvbind k a o s
  | .waitany d a => Sys2Proof.Machine.execWaitany d a s
  | .join a => Sys2Proof.Machine.execJoin a s
  | .yield => Sys2Proof.Machine.execYield s
  | .endw => Sys2Proof.Machine.execEndw s
  | .launch a => Sys2Proof.Machine.execLaunch a s
  | .carve a b => Sys2Proof.Machine.execCarve a b s
  | .bar => Sys2Proof.Machine.execBar s
  | .nbarArv a k => Sys2Proof.Machine.execNbarArv a k s
  | .nbarWt k => Sys2Proof.Machine.execNbarWt k s
  | .mbxSend a k => Sys2Proof.Machine.execMbxSend a k s
  | .mbxSendRel a k => Sys2Proof.Machine.execMbxSendRel a k s
  | .evmask d a => Sys2Proof.Machine.execEvmask d a s
  | .evpoll d => Sys2Proof.Machine.execEvpoll d s
  | .evclr a => Sys2Proof.Machine.execEvclr a s
  | .fence sc => Sys2Proof.Machine.execFence sc s
  | .fenceAcq sc => Sys2Proof.Machine.execFenceAcq sc s
  | .fenceRel sc => Sys2Proof.Machine.execFenceRel sc s
  | .racq a sc => Sys2Proof.Machine.execRacq a sc s
  | .rfence => Sys2Proof.Machine.execRfence s
  | .pref a => Sys2Proof.Machine.execPref a s
  | .cflush a b => Sys2Proof.Machine.execCflush a b s
  | .cinv a b => Sys2Proof.Machine.execCinv a b s
  | .mscpin d a b => Sys2Proof.Machine.execMscpin d a b s
  | .mscunpin a => Sys2Proof.Machine.execMscunpin a s
  | .satom d a b o sc => Sys2Proof.Machine.execSatom d a b o sc s
  | .satomAcq d a b o sc => Sys2Proof.Machine.execSatomAcq d a b o sc s
  | .satomRel d a b o sc => Sys2Proof.Machine.execSatomRel d a b o sc s
  | .satomAcqrel d a b o sc => Sys2Proof.Machine.execSatomAcqrel d a b o sc s
  | .xcopy d a r => Sys2Proof.Machine.execXcopy d a r s
  | .xgath d a r => Sys2Proof.Machine.execXgath d a r s
  | .xred d a r => Sys2Proof.Machine.execXred d a r s
  | .xfill d a r => Sys2Proof.Machine.execXfill d a r s
  | .bclose d c => Sys2Proof.Machine.execBclose d c s
  | .bwait a c => Sys2Proof.Machine.execBwait a c s
  | .cbinit a k => Sys2Proof.Machine.execCbinit a k s
  | .cbacq d k => Sys2Proof.Machine.execCbacq d k s
  | .cbcommit a k => Sys2Proof.Machine.execCbcommit a k s
  | .cbwait a k => Sys2Proof.Machine.execCbwait a k s
  | .cbrel a k => Sys2Proof.Machine.execCbrel a k s
  | .mma f a k => Sys2Proof.Machine.execMma f a k s
  | .mmaP f a k => Sys2Proof.Machine.execMmaP f a k s
  | .mzero k => Sys2Proof.Machine.execMzero k s
  | .nbzero d a r => Sys2Proof.Machine.execNbzero d a r s
  | .nbcopy d a r => Sys2Proof.Machine.execNbcopy d a r s
  | .nbaxpy d a r => Sys2Proof.Machine.execNbaxpy d a r s
  | .nbdot d a r => Sys2Proof.Machine.execNbdot d a r s
  | .nbscal d a r => Sys2Proof.Machine.execNbscal d a r s
  | .bfence => Sys2Proof.Machine.execBfence s
  | .xar d a r => Sys2Proof.Machine.execXar d a r s
  | .xag d a r => Sys2Proof.Machine.execXag d a r s
  | .xrs d a r => Sys2Proof.Machine.execXrs d a r s
  | .xbcst d a r => Sys2Proof.Machine.execXbcst d a r s
  | .trap c => Sys2Proof.Machine.execTrap c s
  | .sysc c => Sys2Proof.Machine.execSysc c s
  | .brk c => Sys2Proof.Machine.execBrk c s
  | .tfence => Sys2Proof.Machine.execTfence s
  | .tret => Sys2Proof.Machine.execTret s
  | .causeclr b => Sys2Proof.Machine.execCauseclr b s
  | .dictionaryParcel imm => Sys2Proof.Machine.execDictionaryParcel imm s
  | .vadd m k d a b => Sys2Proof.Machine.execVadd m k d a b s
  | .vsub m k d a b => Sys2Proof.Machine.execVsub m k d a b s
  | .vmul m k d a b => Sys2Proof.Machine.execVmul m k d a b s
  | .vmulhI32 m k d a b => Sys2Proof.Machine.execVmulhI32 m k d a b s
  | .vmulhZ32 m k d a b => Sys2Proof.Machine.execVmulhZ32 m k d a b s
  | .vmad m k d a b => Sys2Proof.Machine.execVmad m k d a b s
  | .vminI32 m k d a b => Sys2Proof.Machine.execVminI32 m k d a b s
  | .vminZ32 m k d a b => Sys2Proof.Machine.execVminZ32 m k d a b s
  | .vmaxI32 m k d a b => Sys2Proof.Machine.execVmaxI32 m k d a b s
  | .vmaxZ32 m k d a b => Sys2Proof.Machine.execVmaxZ32 m k d a b s
  | .vand m k d a b => Sys2Proof.Machine.execVand m k d a b s
  | .vor m k d a b => Sys2Proof.Machine.execVor m k d a b s
  | .vxor m k d a b => Sys2Proof.Machine.execVxor m k d a b s
  | .vshl m k d a b => Sys2Proof.Machine.execVshl m k d a b s
  | .vshr m k d a b => Sys2Proof.Machine.execVshr m k d a b s
  | .vsra m k d a b => Sys2Proof.Machine.execVsra m k d a b s
  | .vshrr m k d a b => Sys2Proof.Machine.execVshrr m k d a b s
  | .vsel m k d a b => Sys2Proof.Machine.execVsel m k d a b s
  | .vcmpI32 m c q a b => Sys2Proof.Machine.execVcmpI32 m c q a b s
  | .vcmpZ32 m c q a b => Sys2Proof.Machine.execVcmpZ32 m c q a b s
  | .vadd2I16 m k d a b => Sys2Proof.Machine.execVadd2I16 m k d a b s
  | .vsub2I16 m k d a b => Sys2Proof.Machine.execVsub2I16 m k d a b s
  | .vmac2I16 m k d a b => Sys2Proof.Machine.execVmac2I16 m k d a b s
  | .vaddVi m k d a imm => Sys2Proof.Machine.execVaddVi m k d a imm s
  | .vandVi m k d a imm => Sys2Proof.Machine.execVandVi m k d a imm s
  | .vorVi m k d a imm => Sys2Proof.Machine.execVorVi m k d a imm s
  | .vxorVi m k d a imm => Sys2Proof.Machine.execVxorVi m k d a imm s
  | .vshlVi m k d a imm => Sys2Proof.Machine.execVshlVi m k d a imm s
  | .vshrVi m k d a imm => Sys2Proof.Machine.execVshrVi m k d a imm s
  | .vsraVi m k d a imm => Sys2Proof.Machine.execVsraVi m k d a imm s
  | .vshrrVi m k d a imm => Sys2Proof.Machine.execVshrrVi m k d a imm s
  | .vfadd m k d a b => Sys2Proof.Machine.execVfadd m k d a b s
  | .vfsub m k d a b => Sys2Proof.Machine.execVfsub m k d a b s
  | .vfmul m k d a b => Sys2Proof.Machine.execVfmul m k d a b s
  | .vfma m k d a b => Sys2Proof.Machine.execVfma m k d a b s
  | .vfmin m k d a b => Sys2Proof.Machine.execVfmin m k d a b s
  | .vfmax m k d a b => Sys2Proof.Machine.execVfmax m k d a b s
  | .vfcmp m c q a b => Sys2Proof.Machine.execVfcmp m c q a b s
  | .vrcp m k d a => Sys2Proof.Machine.execVrcp m k d a s
  | .vrsq m k d a => Sys2Proof.Machine.execVrsq m k d a s
  | .vsqrt m k d a => Sys2Proof.Machine.execVsqrt m k d a s
  | .vfract m k d a => Sys2Proof.Machine.execVfract m k d a s
  | .vfloor m k d a => Sys2Proof.Machine.execVfloor m k d a s
  | .vrrt m k d a => Sys2Proof.Machine.execVrrt m k d a s
  | .vsint m k d a => Sys2Proof.Machine.execVsint m k d a s
  | .vcost m k d a => Sys2Proof.Machine.execVcost m k d a s
  | .vexp2 m k d a => Sys2Proof.Machine.execVexp2 m k d a s
  | .vlog2 m k d a => Sys2Proof.Machine.execVlog2 m k d a s
  | .vhadd2Bf16 m k d a b => Sys2Proof.Machine.execVhadd2Bf16 m k d a b s
  | .vhadd2F16 m k d a b => Sys2Proof.Machine.execVhadd2F16 m k d a b s
  | .vhmul2Bf16 m k d a b => Sys2Proof.Machine.execVhmul2Bf16 m k d a b s
  | .vhmul2F16 m k d a b => Sys2Proof.Machine.execVhmul2F16 m k d a b s
  | .vhfma2Bf16 m k d a b => Sys2Proof.Machine.execVhfma2Bf16 m k d a b s
  | .vhfma2F16 m k d a b => Sys2Proof.Machine.execVhfma2F16 m k d a b s
  | .vdot2Bf16 m k d a b => Sys2Proof.Machine.execVdot2Bf16 m k d a b s
  | .vdot2F16 m k d a b => Sys2Proof.Machine.execVdot2F16 m k d a b s
  | .vcvt m k d a e sc => Sys2Proof.Machine.execVcvt m k d a e sc s
  | .vslideUp m k d a u n => Sys2Proof.Machine.execVslideUp m k d a u n s
  | .vslideDn m k d a u n => Sys2Proof.Machine.execVslideDn m k d a u n s
  | .vswapp k d a => Sys2Proof.Machine.execVswapp k d a s
  | .vperm k d a b => Sys2Proof.Machine.execVperm k d a b s
  | .vbcast k d a b => Sys2Proof.Machine.execVbcast k d a b s
  | .vred m k d a o f => Sys2Proof.Machine.execVred m k d a o f s
  | .vldf m d a => Sys2Proof.Machine.execVldf m d a s
  | .vstf m d a => Sys2Proof.Machine.execVstf m d a s
  | .vld m d a n => Sys2Proof.Machine.execVld m d a n s
  | .vst m d a n => Sys2Proof.Machine.execVst m d a n s
  | .vlds m d a w => Sys2Proof.Machine.execVlds m d a w s
  | .vsts m d a w => Sys2Proof.Machine.execVsts m d a w s
  | .vatom m d a n => Sys2Proof.Machine.execVatom m d a n s
  | .mrd k d a t => Sys2Proof.Machine.execMrd k d a t s
  | .mwr d a t => Sys2Proof.Machine.execMwr d a t s
  | .grtag k d a g => Sys2Proof.Machine.execGrtag k d a g s
  | .grchk a => Sys2Proof.Machine.execGrchk a s
  | .grdil k d a g => Sys2Proof.Machine.execGrdil k d a g s
  | .grlim g => Sys2Proof.Machine.execGrlim g s
  | .cNop => Sys2Proof.Machine.execCNop s
  | .cLdi d imm => Sys2Proof.Machine.execCLdi d imm s
  | .cLui d imm => Sys2Proof.Machine.execCLui d imm s
  | .cAdd d a b => Sys2Proof.Machine.execCAdd d a b s
  | .cSub d a b => Sys2Proof.Machine.execCSub d a b s
  | .cMul d a b => Sys2Proof.Machine.execCMul d a b s
  | .cAnd d a b => Sys2Proof.Machine.execCAnd d a b s
  | .cOr d a b => Sys2Proof.Machine.execCOr d a b s
  | .cXor d a b => Sys2Proof.Machine.execCXor d a b s
  | .cShl d a b => Sys2Proof.Machine.execCShl d a b s
  | .cShr d a b => Sys2Proof.Machine.execCShr d a b s
  | .cMin d a b => Sys2Proof.Machine.execCMin d a b s
  | .cMax d a b => Sys2Proof.Machine.execCMax d a b s
  | .cSlt d a b => Sys2Proof.Machine.execCSlt d a b s
  | .cAddi d a imm => Sys2Proof.Machine.execCAddi d a imm s
  | .cSel d a b => Sys2Proof.Machine.execCSel d a b s
  | .cBeq a b k => Sys2Proof.Machine.execCBeq a b k s
  | .cBne a b k => Sys2Proof.Machine.execCBne a b k s
  | .cBlt a b k => Sys2Proof.Machine.execCBlt a b k s
  | .cBge a b k => Sys2Proof.Machine.execCBge a b k s
  | .cJmp k => Sys2Proof.Machine.execCJmp k s
  | .cLoopn n l => Sys2Proof.Machine.execCLoopn n l s
  | .cLdq d a f => Sys2Proof.Machine.execCLdq d a f s
  | .cLde d f => Sys2Proof.Machine.execCLde d f s
  | .cLds d k => Sys2Proof.Machine.execCLds d k s
  | .cSts a k => Sys2Proof.Machine.execCSts a k s
  | .cRetq a => Sys2Proof.Machine.execCRetq a s
  | .cRetn => Sys2Proof.Machine.execCRetn s
  | .pageFaultResolution w f mapped => Sys2Proof.Machine.execPageFaultResolution w f mapped s
  | .fragmentArrive w f => Sys2Proof.Machine.execFragmentArrive w f s
  | .joinBoundExpire w r => Sys2Proof.Machine.execJoinBoundExpire w r s
  | .carveComplete t => Sys2Proof.Machine.execCarveComplete t s
  | .waitanyWake w => Sys2Proof.Machine.execWaitanyWake w s
  | .deadlineFire w k => Sys2Proof.Machine.execDeadlineFire w k s
  | .dispatchNeighbourhood g => Sys2Proof.Machine.execDispatchNeighbourhood g s
  | .teamRetire t => Sys2Proof.Machine.execTeamRetire t s
  | .gridRetire g => Sys2Proof.Machine.execGridRetire g s
  | .engineContextStart die => Sys2Proof.Machine.execEngineContextStart die s
  | .copyOperationComplete op => Sys2Proof.Machine.execCopyOperationComplete op s
  | .engineFaultResolution op mapped => Sys2Proof.Machine.execEngineFaultResolution op mapped s
  | .matrixOpExecute op => Sys2Proof.Machine.execMatrixOpExecute op s
  | .matrixOpRetire op mismatches => Sys2Proof.Machine.execMatrixOpRetire op mismatches s
  | .mzeroExecute op => Sys2Proof.Machine.execMzeroExecute op s
  | .tileInterlockRelease t k => Sys2Proof.Machine.execTileInterlockRelease t k s
  | .bankCommandIntake stack => Sys2Proof.Machine.execBankCommandIntake stack s
  | .bankPartExecute op bank => Sys2Proof.Machine.execBankPartExecute op bank s
  | .bankCommandComplete op => Sys2Proof.Machine.execBankCommandComplete op s
  | .bfenceResume w f => Sys2Proof.Machine.execBfenceResume w f s
  | .collectivePartComplete op => Sys2Proof.Machine.execCollectivePartComplete op s
  | .peerTimeout op => Sys2Proof.Machine.execPeerTimeout op s
  | .promotionRequest line scope => Sys2Proof.Machine.execPromotionRequest line scope s
  | .pageWalk vd die va acc => Sys2Proof.Machine.execPageWalk vd die va acc s
  | .memoryRequestService die => Sys2Proof.Machine.execMemoryRequestService die s
  | .fadePass die => Sys2Proof.Machine.execFadePass die s
  | .syscCompletion call results writes => Sys2Proof.Machine.execSyscCompletion call results writes s
  | .d2dMessageReceive link staged => Sys2Proof.Machine.execD2dMessageReceive link staged s
  | .d2dRetry link => Sys2Proof.Machine.execD2dRetry link s
  | .cxlLinkDown port => Sys2Proof.Machine.execCxlLinkDown port s
  | .cxlCompletionTimeout port => Sys2Proof.Machine.execCxlCompletionTimeout port s
  | .hostAccess fn place acc => Sys2Proof.Machine.execHostAccess fn place acc s
  | .roceRequest place req => Sys2Proof.Machine.execRoceRequest place req s
  | .doorbellWrite bell tail => Sys2Proof.Machine.execDoorbellWrite bell tail s
  | .policyPick vd pol die clock => Sys2Proof.Machine.execPolicyPick vd pol die clock s
  | .timeSliceEnd g held clock => Sys2Proof.Machine.execTimeSliceEnd g held clock s
  | .drainWatchdogExpire g => Sys2Proof.Machine.execDrainWatchdogExpire g s
  | .urgentPreemption nb => Sys2Proof.Machine.execUrgentPreemption nb s
  | .contextSave nb image => Sys2Proof.Machine.execContextSave nb image s
  | .contextRestore nb => Sys2Proof.Machine.execContextRestore nb s
  | .queueLaunch q => Sys2Proof.Machine.execQueueLaunch q s
  | .copy q => Sys2Proof.Machine.execCopy q s
  | .coll q => Sys2Proof.Machine.execColl q s
  | .depwait q => Sys2Proof.Machine.execDepwait q s
  | .depwaitRecheck q => Sys2Proof.Machine.execDepwaitRecheck q s
  | .post q => Sys2Proof.Machine.execPost q s
  | .vdset q => Sys2Proof.Machine.execVdset q s
  | .bind q => Sys2Proof.Machine.execBind q s
  | .unbind q => Sys2Proof.Machine.execUnbind q s
  | .shoot q => Sys2Proof.Machine.execShoot q s
  | .polload q => Sys2Proof.Machine.execPolload q s
  | .powerOn => Sys2Proof.Machine.execPowerOn s
  | .hbmTrainingComplete die => Sys2Proof.Machine.execHbmTrainingComplete die s
  | .attestationRequest => Sys2Proof.Machine.execAttestationRequest s
  | .heartbeatMiss cp => Sys2Proof.Machine.execHeartbeatMiss cp s
  | .dieReset die answers => Sys2Proof.Machine.execDieReset die answers s
  | .unitFence u => Sys2Proof.Machine.execUnitFence u s
  | .fullServiceSwitch die => Sys2Proof.Machine.execFullServiceSwitch die s
  | .retraceReplay entry => Sys2Proof.Machine.execRetraceReplay entry s
  | .housekeepingRegisterWrite reg value => Sys2Proof.Machine.execHousekeepingRegisterWrite reg value s
  | .dieReturnToService die => Sys2Proof.Machine.execDieReturnToService die s
  | .cxlPortEnumeration port size => Sys2Proof.Machine.execCxlPortEnumeration port size s
  | .cxlWindowRemap port size => Sys2Proof.Machine.execCxlWindowRemap port size s
  | .debuggerResume w f pc mask => Sys2Proof.Machine.execDebuggerResume w f pc mask s
  | .heartbeat cp => Sys2Proof.Machine.execHeartbeat cp s

end Sys2Proof.Machine
end

