-- ==== Sys2Proof/Machine/Schedule.lean ====
section
/-! DEFINITION. What moves next (log 3): the choice of a fragment in a sector (R81, R163, R164, R166), the issue of an
instruction (R43, R47, R94), what is due, the inputs of the agenda, and the steps of the other agents. -/

namespace Sys2Proof.Machine

/-! ### Time (R46) -/

/-- The fragments of a core that waited for an operand in this cycle look again in the next (R129, R163). -/
def State.clearStalls (s : State) (key : Nat) : State :=
  { s with waves := TabOps.mapVals (fun _ w =>
      if w.key == key && w.live.any (fun f => f.2.stalled) then
        { w with frags := w.frags.map (fun f => f.map (fun f => { f with stalled := false })) }
      else w) s.waves }

/-- A cycle of a core: CYCLE advances (R46); with core 0 of a die the die's buckets are refilled every 256 cycles, and its
eviction pass runs at the end of every cycle that is a multiple of 65,536, after its hits (R196, R199, log 3). -/
def State.advance (s : State) (key : Nat) : State :=
  let c := s.core key
  let s := (s.setCore key { c with cycle := c.cycle + 1 }).clearStalls key
  let n := (c.cycle + 1).toNat
  let s := if key % 48 = 0 ∧ n % 256 = 0 then s.refill (key / 48) else s
  if key % 48 = 0 ∧ c.cycle ≠ 0 ∧ c.cycle.toNat % 65536 = 0 then
    (match execFadePass (key / 48) s with
     | .next t => t
     | _ => s)
  else s

/-- A cycle of the command processors: every die with room has a pick again (log 71). -/
def State.cpAdvance (s : State) : State :=
  { s with
    cpCycle := s.cpCycle + 1
    picks := [] }

/-- A cycle of every core of the dies that have one or send messages, and of the command processors. -/
def State.tickAll (s : State) : State :=
  let senders := (s.links.map (fun l => l.2.src)).filter (fun d => decide (d < 24))
  let keys := (s.cores.map Prod.fst ++ s.cores.map (fun (c : Nat × Core) => c.1 / 48 * 48)
    ++ senders.map (fun d => d * 48)).eraseDups
  let s := keys.foldl State.advance s
  s.cpAdvance

/-! ### Ready fragments (R163) -/

/-- A fragment's wait has ended, so it can issue (R163). -/
def State.parkOver (s : State) (w : Wave) (t : Team) (g : Grid) : Park → Bool
  | .ready => true
  | .score rs => !w.pendingAny rs
  | .queueFull .copy => decide (s.copyQueue w.key < 1024)
  | .queueFull .coll => decide (s.collQueue w.key < 64)
  | .queueFull (.bank k) => decide ((TabOps.get [] s.intake k).length < 64)
  | .closeFull k => decide (((w.batch k.toNat).cl + 1 - (w.batch k.toNat).dn).toNat < 32768)
  | .cbacq k => (t.cb k.toNat).all (fun b => decide ((b.acq - b.rel).toNat < b.nstg))
  | .pairBusy => !(s.captureFull w.key || s.slaved w.key
      || ((s.followerOf t g).any (fun u => s.captureFull (s.teamKey u.1))))
  | .nbar k p => !((t.nbar k.toNat).waits p)
  | .bwait k n => serialLe n (w.batch k.toNat).dn
  | .tileReady _ _ => true
  | .cxl _ _ => true
  | .joined | .waitany _ _ | .bar | .carve _ _ | .cbwait _ _ | .bfence | .tile _ _ | .sysc _ | .trapWait _ _
  | .pageFault _ _ | .debugger _ => false

/-- The fragment holds its whole wave: it waits for data of the CXL tier, or at a BFENCE (R248, R334, R351). -/
def holdsWave : Park → Bool
  | .cxl _ _ | .bfence => true
  | _ => false

/-- The fragment's instruction has begun and completes before a save: a load of the CXL tier, or an MRD or MWR in the
queue of its half (R318, R351, R353). -/
def begunPark : Park → Bool
  | .cxl _ _ | .tileReady _ _ => true
  | _ => false

/-- The instruction that a fragment fetches next, with its length; of a dictionary parcel the one that it stands for (R73,
R85). -/
def State.nextInstr (s : State) (wid : Nat) (w : Wave) (g : Grid) (f : Fragment) : Option (Instr × Nat) :=
  match s.fetch wid w g f.pc with
  | .instr (.dictionaryParcel i) n =>
    (match (s.dictWord w g i.toNat).map decodeEntry with
     | some (.ok j) => some (j, n)
     | _ => none)
  | .instr i n => some (i, n)
  | .illegal _ | .fault _ _ => none

/-- Something that can stall an instruction of a wave stands in the state: an operation in flight, a stage that is not free, a
batch that is not complete (R292, R294, R298, R310). -/
def State.stallsExist (s : State) (w : Wave) (t : Team) : Bool :=
  !s.ops.isEmpty || !w.pendRegs.isEmpty || t.cbs.any (fun b => b.any (fun b => b.acq != b.rel))
    || w.batches.any (fun b => b.cl != b.dn)

/-- A fragment's next instruction would stall, on its scoreboard or for want of room: it is not ready, and does not arrive at
its record's address either (R129, R160, R163, R292). -/
def State.wouldStall (s : State) (wid fid : Nat) (w : Wave) (t : Team) (g : Grid) (f : Fragment) : Bool :=
  s.stallsExist w t &&
    (match s.nextInstr wid w g f with
     | none => false
     | some (i, n) =>
       (match exec i { s with
          free := s.free + 1
          cur := some { wave := wid, frag := fid, ilen := n } } with
        | .next u => ((TabOps.find? u.waves wid).bind (fun v => v.frag? fid)).any (fun x => x.park.stalls)
        | .fault _ | .refused _ => false))

/-- A fragment may issue now: its wave, team and neighbourhood run (R353), its wait is over, its operands are there and it would
not stall (R163), no other fragment holds its wave (R334, R351). -/
def State.mayIssue (s : State) (wid fid : Nat) : Bool :=
  match TabOps.find? s.waves wid with
  | none => false
  | some w =>
    match w.frag? fid, TabOps.find? s.teams w.team, TabOps.find? s.grids w.grid with
    | some f, some t, some g =>
      w.life == .running && t.life == .running && g.life == .running && !f.stalled && s.parkOver w t g f.park
        && !s.wouldStall wid fid w t g f
        && w.live.all (fun x => x.1 == fid || !holdsWave x.2.park)
        && ((TabOps.find? s.nbs w.nb).all (fun n =>
              n.life == .placed || begunPark f.park || (!w.latches.isEmpty && w.chainFrag == fid)))
    | _, _, _ => false

/-! ### The choice of a sector (R81, R163, R164, R166) -/

/-- The sector of a slot (R150). -/
def sectorOf (slot : Nat) : Nat := slot / 16

/-- The running waves of a sector of a core. -/
def State.sectorWaves (s : State) (key sector : Nat) : List (Nat × Wave) :=
  s.waves.filter (fun w => w.2.life == .running && w.2.key == key && sectorOf w.2.slot == sector)

/-- A fragment that may issue: wave, entry, and its place in the round. -/
structure Turn where
  wave  : Nat
  frag  : Nat
  place : Nat
  wait  : Nat
  deriving DecidableEq, Repr

/-- How many of the two vector pipes of a sector a chain holds (R81). -/
def State.pipesHeld (s : State) (key sector : Nat) : Nat :=
  ((s.sectorWaves key sector).filter (fun w => !w.2.latches.isEmpty)).length

/-- A fragment's next instruction runs on a vector pipe (R115). -/
def State.usesPipe (s : State) (wid : Nat) (w : Wave) (f : Fragment) : Bool :=
  ((TabOps.find? s.grids w.grid).bind (fun g => s.nextInstr wid w g f)).any (fun x =>
    x.1.vec?.isSome || (match x.1 with
      | .mwr _ _ _ => true
      | _ => false))

/-- The chains that are open leave a pipe for a fragment: in a wave with one only its own fragment goes on, which for the
scalar instructions of its siblings is the model's choice (log 64); of another wave one that needs a vector pipe waits while
chains hold both, and any other goes on (R81, R162). -/
def State.pipeFree (s : State) (key sector wid : Nat) (w : Wave) (fid : Nat) (f : Fragment) : Bool :=
  if w.latches.isEmpty then decide (s.pipesHeld key sector < 2) || !s.usesPipe wid w f
  else fid == w.chainFrag

/-- The fragments of a sector that may issue, in the order of slot and entry (R81, R163). One that executed YIELD comes after
any other (R166). -/
def State.turns (s : State) (key sector : Nat) : List Turn :=
  let all := (s.sectorWaves key sector).flatMap (fun w =>
    (w.2.live.filter (fun f => s.mayIssue w.1 f.1 && s.pipeFree key sector w.1 w.2 f.1 f.2)).map (fun f =>
      ({ wave := w.1, frag := f.1, place := w.2.slot * 8 + f.1, wait := f.2.wait } : Turn)))
  let fresh := all.filter (fun x => !(((TabOps.find? s.waves x.wave).bind (fun w => w.frag? x.frag)).any Fragment.yielded))
  if fresh.isEmpty then all else fresh

/-- The fragment that has waited longest, at least 64 issue cycles; the lower place wins a tie. -/
def starved (ts : List Turn) : Option Turn :=
  (ts.filter (fun x => decide (64 ≤ x.wait))).foldl (fun best x =>
    match best with
    | none => some x
    | some b => if b.wait < x.wait ∨ (b.wait = x.wait ∧ x.place < b.place) then some x else some b) none

/-- The next turn after a place, round and round. -/
def nextTurn (last : Nat) (ts : List Turn) : Option Turn :=
  let lower := fun (xs : List Turn) => xs.foldl (fun best x =>
    match best with
    | none => some x
    | some b => if x.place < b.place then some x else some b) (none : Option Turn)
  match lower (ts.filter (fun x => decide (last < x.place))) with
  | some x => some x
  | none => lower ts

/-- The wave of a turn is the urgent one of its team (R164). -/
def State.turnUrgent (s : State) (x : Turn) : Bool :=
  match (TabOps.find? s.waves x.wave).bind (fun w => TabOps.find? s.teams w.team) with
  | some t => s.urgent t == some x.wave
  | none => false

/-- The choice of a sector (R163); in deterministic mode without the urgent wave (R404). The urgent waves of several
teams take turns as the others do (log 64). -/
def State.sectorPick (s : State) (key sector : Nat) : Option Turn :=
  let ts := s.turns key sector
  let last := (s.core key).turns.getD sector 0
  match starved ts with
  | some x => some x
  | none =>
    match (if s.replaying then none else nextTurn last (ts.filter s.turnUrgent)) with
    | some x => some x
    | none => nextTurn last ts

/-- The sectors that hold running waves, those after the last one served first. -/
def State.sectors (s : State) : List (Nat × Nat) :=
  let ks := ((s.waves.filter (fun w => w.2.life == .running)).map (fun w => (w.2.key, sectorOf w.2.slot))).eraseDups
  ks.filter (fun k => decide (s.last.1 < k.1 ∨ (s.last.1 = k.1 ∧ s.last.2 < k.2)))
    ++ ks.filter (fun k => !decide (s.last.1 < k.1 ∨ (s.last.1 = k.1 ∧ s.last.2 < k.2)))

/-- The circular buffer, with its team, that the next instruction of a turn names, in a dictionary's entry too (R85). -/
def State.bufferOf (s : State) (x : Turn) : Option (Nat × Nat) :=
  match TabOps.find? s.waves x.wave with
  | none => none
  | some w =>
    match w.frag? x.frag, TabOps.find? s.grids w.grid with
    | some f, some g =>
      (match s.nextInstr x.wave w g f with
       | some (.cbinit _ k, _) => some (w.team, k.toNat)
       | some (.cbacq _ k, _) => some (w.team, k.toNat)
       | some (.cbcommit _ k, _) => some (w.team, k.toNat)
       | some (.cbwait _ k, _) => some (w.team, k.toNat)
       | some (.cbrel _ k, _) => some (w.team, k.toNat)
       | _ => none)
    | _, _ => none

/-- Of several sectors that have chosen instructions on one circular buffer the lower slot comes first (R302). -/
def State.bufferFirst (s : State) (x : Turn) (others : List Turn) : Turn :=
  if others.isEmpty then x
  else match s.bufferOf x with
    | none => x
    | some b => others.foldl (fun best y => if s.bufferOf y = some b ∧ y.place < best.place then y else best) x

/-- The choices of the sectors, those after the last one served first. -/
def State.choices (s : State) : List Turn := s.sectors.filterMap (fun k => s.sectorPick k.1 k.2)

/-- The next sector with a fragment to issue, and its choice (R302). -/
def State.pick (s : State) : Option Turn :=
  match s.choices with
  | [] => none
  | x :: xs => some (s.bufferFirst x xs)

/-! ### Issue (R43, R47, R94) -/

/-- The bookkeeping of an issue: the core's cycle, the wave's count, in which an instruction that waited counts once
(R164), the waits of the sector's other fragments, which pause while a chain holds the pipe (R163), the end of their
YIELDs (R166), and the turn. -/
def State.serveTurn (s : State) (wid fid : Nat) (w : Wave) : State :=
  let key := w.key
  let sector := sectorOf w.slot
  let c := s.core key
  let s1 := (s.setCore key { c with turns := setAt c.turns sector (w.slot * 8 + fid) }).advance key
  let s2 : State := { s1 with
    last := (key, sector)
    turn := true }
  let bump := fun (i : Nat) (v : Wave) =>
    if v.life == .running && v.key == key && sectorOf v.slot == sector then
      { v with frags := v.frags.zipIdx.map (fun x => x.1.map (fun f =>
          if i = wid ∧ x.2 = fid then { f with wait := 0 }
          else
            let f := { f with yielded := false }
            if s.pipesHeld key sector == 0 && s.mayIssue i x.2 then { f with wait := f.wait + 1 } else f)) }
    else v
  let s3 : State := { s2 with waves := TabOps.mapVals bump s2.waves }
  if (w.frag? fid).any (fun f => f.plen = 0) then s3.modWave wid (fun v => { v with issued := v.issued + 1 }) else s3

/-- After an instruction: no fragment executes, and a chain that its next instruction does not continue has ended
(R81, R82). -/
def State.afterIssue (s : State) (wid : Nat) : State :=
  let s : State := { s with cur := none }
  match TabOps.find? s.waves wid with
  | none => s
  | some w => if w.latches.isEmpty || s.chainOpen wid w then s else s.setWave wid w.endChain

/-- An outcome followed by a change of the next state. -/
def andThen (o : Out State) (h : State → State) : Out State :=
  match o with
  | .next s => .next (h s)
  | .fault f => .fault f
  | .refused r => .refused r

/-- The instruction length of a fetch that faults before it is known: one of 2, 4 and 8, which is free (log 5). -/
def freeLen (free : Nat) : Nat := 2 * 2 ^ (Config.freeChoice free % 3)

/-- The state in which the instruction of an issue executes: the turn is served, the traces of the fetch are left (R205,
R259), and the free values of the next instruction are new. -/
def State.issued (s : State) (wid fid : Nat) (w : Wave) (f : Fragment) (g : Grid) (n : Nat) : State :=
  let s1 := (s.serveTurn wid fid w).fetched w g f.pc n
  { s1 with
    free := s1.free + 1
    cur := some { wave := wid, frag := fid, ilen := n } }

/-- A load that ports held goes on with each port as it stood then: what came after its wait does not concern it (R351). -/
def State.reopened (s : State) (f : Fragment) : State :=
  f.waited.foldl (fun s p => s.setPort p (fun x => { x with linkUp := true, available := true })) s

/-- Those ports as they stand now, after the load. -/
def State.reclosed (t s : State) (f : Fragment) : State :=
  f.waited.foldl (fun t p => t.setPort p (fun x =>
    { x with linkUp := (s.port p).linkUp, available := (s.port p).available })) t

/-- The issue of a fragment's next instruction: fetch, decode, and the instruction's own effect; a word that is no
instruction raises ILLOP, a fetch that fails raises its cause (R43, R47, R94, R202 to R204). -/
def State.issue (s : State) (wid fid : Nat) : Out State :=
  match TabOps.find? s.waves wid with
  | none => .next s
  | some w =>
    match w.frag? fid, TabOps.find? s.grids w.grid with
    | some f, some g =>
      if w.arrives f then execFragmentArrive wid fid s
      else match s.fetch wid w g f.pc with
        | .instr i n =>
          andThen (exec i ((s.issued wid fid w f g n).reopened f)) (fun t => (t.reclosed s f).afterIssue wid)
        | .illegal n => .next (((s.issued wid fid w f g n).raiseAt wid fid n Cause.illop 0 false).afterIssue wid)
        | .fault e n =>
          .next (((s.issued wid fid w f g 0).raiseAt wid fid (n.getD (freeLen s.free)) (Cause.ofMem e) f.pc
            (e != .cxlDown)).afterIssue wid)
    | _, _ => .next s

/-! ### What is due (R160, R161, R175, R178) -/

/-- What comes before an issue. -/
inductive Due where
  | deadline (w : Nat) (k : BitVec 4)
  | wake (w : Nat)
  | arrive (w f : Nat)
  | bound (w r : Nat)
  | ended (w : Nat)
  | stop (nb : Nat)
  deriving DecidableEq, Repr

/-- A fragment would issue at its record's address in this cycle: its sector chooses it (R160, R163). -/
def State.wouldArrive (s : State) (wid fid : Nat) (w : Wave) (f : Fragment) : Bool :=
  w.arrives f && (s.sectorPick w.key (sectorOf w.slot)).any (fun x => x.wave == wid && x.frag == fid)

/-- A bound that has run out is due, but in the cycle in which it does, a fragment that would issue at the record's address
arrives first (R161). -/
def State.boundDue (s : State) (wid : Nat) (w : Wave) (q : Nat) : Due :=
  match (w.holders q).find? (fun f => s.wouldArrive wid f.1 w f.2), w.rec? q with
  | some f, some r => if s.lastCycle w r then .arrive wid f.1 else .bound wid q
  | _, _ => .bound wid q

/-- What a running wave has due: a deadline, a waiting fragment whose slot is pending, a join bound. A wave that is
stopped for a save fires what was reached in the cycle of the stop, and wakes nothing (R182, R353). An ended wave has its
mark due (R374). -/
def State.waveDue (s : State) (wid : Nat) (w : Wave) : Option Due :=
  if w.life == .ended then (if w.marked then none else some (.ended wid))
  else if w.life != .running then none
  else match (List.range 16).find? (fun k => (w.bind k).armed && (w.bind k).deadline.any (reached (s.timeOf w))) with
    | some k => some (.deadline wid (BitVec.ofNat 4 k))
    | none =>
      if w.stopAt.isNone
          && (List.range 16).any (fun k => w.evpend.getLsbD k && (s.eligible w).getLsbD k && (w.waiter k).isSome) then
        some (.wake wid)
      else ((List.range 7).find? (fun q => (w.rec? q).any (s.expired w))).map (fun q => s.boundDue wid w q)

/-- The neighbourhood stops, its last open chain has ended, and a wave of it still counts (R182, R353). -/
def State.stopDue (s : State) (n : Nb) : Bool :=
  n.life == .stopping && s.chainsOver n
    && (s.nbWaves n).any (fun i => (TabOps.find? s.waves i).any (fun w => w.life == .running && w.stopAt.isNone))

/-- The first thing that is due. -/
def State.due (s : State) : Option Due :=
  match s.waves.findSome? (fun w => s.waveDue w.1 w.2) with
  | some d => some d
  | none => (s.nbs.find? (fun n => s.stopDue n.2)).map (fun n => .stop n.1)

/-- What is due happens: DEADLINE_FIRE, WAITANY_WAKE, FRAGMENT_ARRIVE, JOIN_BOUND_EXPIRE. -/
def State.dueStep (s : State) : Due → Out State
  | .deadline w k => execDeadlineFire w k s
  | .wake w => execWaitanyWake w s
  | .arrive w f => execFragmentArrive w f s
  | .bound w r => execJoinBoundExpire w r s
  | .ended w => .next (s.departWave w)
  | .stop nb => .next (((TabOps.find? s.nbs nb).map s.settleStop).getD s)

/-! ### Inputs -/

/-- The fragment that the sector of a wave chooses (R163). -/
def State.turnOf (s : State) (wid : Nat) : Option Turn :=
  match TabOps.find? s.waves wid with
  | some w => s.sectorPick w.key (sectorOf w.slot)
  | none => none

/-- A transit check of a line fails after its retries: a read finds it, a write leaves the line marked poisoned, with a
TRANSIT record to the page's owner; a page of grade 0 has no such check (R261, R269). -/
def State.transitFail (s : State) (line : Nat) (write : Bool) : State :=
  if !write then { s with transit := (line :: s.transit).eraseDups }
  else if (s.pageCode line).grade = 0 then s
  else
    let o := s.pageCode line
    ((s.mscEvict line).markPoisoned line).errorRecord o.vd
      { owner := o.owner, kind := 2, grade := o.grade.toNat, eg := 0, die := s.homeDie (line * 128), handle := 0,
        line := line * 128, pc := 0, cycle := s.dieCycle (s.homeDie (line * 128)) }

/-- The unified array finds an uncorrectable error in a register lane: it is poisoned, which may fill the origin latch
(R266, R268). -/
def State.laneFail (s : State) (wid v l : Nat) : State :=
  match TabOps.find? s.waves wid with
  | none => s
  | some w =>
    match TabOps.find? s.grids w.grid with
    | none => s
    | some g =>
      let x := w.v v
      let vs := setAt w.vregs v { x with poison := x.poison ||| BitVec.ofNat 128 (2 ^ l) }
      s.setWave wid ({ w with vregs := vs }.fillOrigin (originWord g.owner.toNat 1 w.eg.toNat 0))

/-- A partition of a set has fewer ways than lines, a line of the set among them (R194). -/
def State.mscOver (s : State) (line : Nat) : Bool :=
  decide (s.mscWays line ≤ (s.mscRivals line).length) && (s.msc.any (fun l => l.1 == line))

/-- F of a die set, at most 4: unpinned lines that a partition has no way for any more are written back and dropped (R194,
R196). Where the pinned lines would not fit, F stays as it was (log 79). -/
def State.setFar (s : State) (die f : Nat) : State :=
  let s1 := s.setDie die (fun d => { d with far := min f 4 })
  let t := (s1.mscOf die).foldl (fun s line => if s.mscOver line && !s.pinned line then s.mscEvict line else s) s1
  if s1.pinOverflow die ((s1.pins.filter (fun p => p.die == die)).flatMap Pin.pages) || (t.mscOf die).any t.mscOver then s
  else t

/-- An input of the agenda. -/
def State.perform (s : State) (a : Action) : Out State :=
  match a with
  | .issue w f =>
    (match (s.turnOf w).filter (fun x => x.wave == w && x.frag == f) with
     | none => .next s
     | some x => let y := s.bufferFirst x (s.choices.filter (· != x)); s.issue y.wave y.frag)
  | .stall w f => .next (s.modWave w (fun x => match x.frag? f with
      | some y => x.setFrag f { y with stalled := true }
      | none => x))
  | .event i =>
    (match exec i { s with cur := none } with
     | .next t => .next t
     | _ => .next s)
  | .setFar die f => .next (s.setFar die f)
  | .computeFault w run lane bit => .next (s.modWave w (fun x =>
      { x with faults := x.faults ++ [{ run := run, lane := lane, bit := bit }] }))
  | .tick core => .next (s.advance core)
  | .storageError line e => .next { s with errors := TabOps.put s.errors line e }
  | .transitError line write => .next (s.transitFail line write)
  | .laneError w v l => .next (s.laneFail w v l)
  | .scratchError t word => .next (s.modTeam t (fun x => { x with spPois := (word :: x.spPois).eraseDups }))
  | .attach g on => .next (s.modGrid g (fun x => { x with debugged := on }))
  | .peerPart vd group seq rank p => .next (s.addPart vd group seq rank p)
  | .kernelStore pa bs =>
    .next (if (List.range bs.length).all (fun i => s.homeState (pa + i) == .ok) then s.homeWrite pa bs true else s)
  | .peerDeparts e => .next (s.depart e)
  | .assignOwner o vd => .next { s with ownerVd := TabOps.put s.ownerVd o vd }
  | .setModule n => .next { s with moduleNo := n }
  | .setInputs q xs => .next { s with retrace := { s.retrace with inputs := TabOps.put s.retrace.inputs q xs } }
  | .assignNode vd n => .next { s with nodes := TabOps.put s.nodes vd n }
  | .setWindow w on => .next { s with windows := if on then (w :: s.windows).eraseDups else s.windows.filter (· != w) }
  | .cpTick => .next s.cpAdvance
  | .clock ns => .next { s with clock := s.clock + ns }
  | .setTimeout port ms => .next (if 1 ≤ ms ∧ ms ≤ 64 then s.setPort port (fun p => { p with timeout := ms }) else s)
  | .debugWrite w x => .next (s.debugWrite w x)
  | .engineBeat die coll => .next (s.engineBeat die coll)
  | .d2dSend src dst cls flits => .next (s.d2dSend src dst cls flits)
  | .d2dForward link n => .next (s.d2dForward link n)

/-! ### The other agents -/

/-- What the engines, arrays and units may do for an operation. -/
def opEvents (id : Nat) (o : Op) : List (State → Out State) :=
  match o.body with
  | .copy _ => [execEngineContextStart o.die, fun s => .next (s.engineBeat o.die false), execCopyOperationComplete id]
  | .coll _ =>
    [execEngineContextStart o.die, fun s => .next (s.engineBeat o.die true), execCollectivePartComplete id,
     execPeerTimeout id]
  | .bank c => execBankCommandIntake c.stack :: ((c.toRead ++ c.toWrite).map (fun b => execBankPartExecute id b))
      ++ [execBankCommandComplete id]
  | .mma _ => [execMatrixOpExecute id, execMatrixOpRetire id 0]
  | .mzero _ => [execMzeroExecute id]

/-- What the dispatcher and the tile halves may do for a team. -/
def teamEvents (id : Nat) (t : Team) : List (State → Out State) :=
  (t.tiles.zipIdx.filter (fun x => !x.1.queue.isEmpty)).map (fun x => execTileInterlockRelease id (BitVec.ofNat 6 x.2))
    ++ [execCarveComplete id, execTeamRetire id]

/-- What the transport may do for a channel (R363). -/
def linkEvents (k : Nat) (l : Link) : List (State → Out State) :=
  (List.range l.wire.length).map (fun n s => .next (s.d2dForward k n))
    ++ [execD2dMessageReceive k true, execD2dRetry k]

/-- What the command processors may do for a queue. -/
def queueEvents (q : Nat) : List (State → Out State) :=
  [execQueueLaunch q, execCopy q, execColl q, execDepwait q, execDepwaitRecheck q, execPost q, execVdset q, execBind q,
   execUnbind q, execShoot q, execPolload q]

/-- The steps that the module's own agents may take, in a fixed order (log 3); those that wait for the resident kernel
or the outside world are not among them. -/
def State.candidateEvents (s : State) : List (State → Out State) :=
  s.teams.flatMap (fun t => teamEvents t.1 t.2)
    ++ s.waves.flatMap (fun w => (w.2.live.filter (fun f => f.2.park == .bfence)).map (fun f => execBfenceResume w.1 f.1))
    ++ s.ops.flatMap (fun o => opEvents o.1 o.2)
    ++ s.grids.flatMap (fun g => [execDispatchNeighbourhood g.1, execGridRetire g.1])
    ++ s.queues.flatMap (fun q => if q.2.state = 0 then [] else queueEvents q.1)
    ++ (s.nextPick.toList).map (fun p => execPolicyPick p.2.vd (p.2.pol.getD 0) p.1 s.clock)
    ++ (s.calls.filter (fun c => c.2.logged.isSome)).map (fun c => execSyscCompletion c.1 [] [])
    ++ s.requests.map (fun r => execMemoryRequestService r.1)
    ++ s.links.flatMap (fun l => linkEvents l.1 l.2)
    ++ s.dies.map (fun d => execFullServiceSwitch d.1)

/-- The first of those steps that changes the state. -/
def State.nextEvent (s : State) : Option State :=
  s.candidateEvents.findSome? (fun step =>
    match step s with
    | .next t => if t = s then none else some t
    | _ => none)

/-! ### A policy run (R392, R393) -/

/-- The next instruction of a policy run, which returns NONE past its last one. -/
def State.runStep (s : State) (r : PolicyRun) : Out State :=
  match (r.program[r.pos]?).map decodeCompass with
  | some (.ok i) => exec i s
  | some (.error _) | none => .next (s.endRun r none)

/-! ### The step -/

/-- The step with nothing due and no input: after an issue a step of the other agents, then the fragment that the
scheduler picks, else a step of the other agents, else a cycle; so no agent waits forever for another (log 3). -/
def State.ownMove (s : State) : Out State :=
  match (if s.turn then s.nextEvent else none) with
  | some t => .next { t with turn := false }
  | none =>
    match s.pick with
    | some x => s.issue x.wave x.frag
    | none =>
      match s.nextEvent with
      | some t => .next t
      | none => .next s.tickAll

/-- One step: a policy run first, then what is due, the agenda, and else the module's own next move (log 3). -/
def State.move (s : State) : Out State :=
  match s.compass with
  | some r => s.runStep r
  | none =>
    match s.due with
    | some d => s.dueStep d
    | none =>
      match s.agenda with
      | a :: rest => ({ s with agenda := rest } : State).perform a
      | [] => s.ownMove

end Sys2Proof.Machine
end

