-- ==== Sys2Proof/Machine/FetchPlace.lean ====
section
/-! DEFINITION. Placing the bytes of one instruction where the next step fetches (log 4): in the policy run, at the pc
of the fragment that the scheduler picks, or, where nothing runs, in the first wave of a grid of its own. -/

namespace Sys2Proof.Machine

/-- The packet of the placed grid: one team of one wave of 32 lanes with 128 vector and 64 scalar registers. -/
def placedPacket : Packet :=
  { entry := 0x4000, tvec := 0x8000, gridX := 1, gridY := 1, gridZ := 1, teamLanes := 32, widthC := 0, producer := 0,
    grade := 0, fuse := false, paired := false, nt := 0, nv := 128, ns := 64, spu := 0, l1xu := 0, dictN := 0,
    recN := 0, map := [0], dict := 0, recA := 0, cpl := 0, notify := false, slot := 0 }

/-- Memory with a root table at 0, a level-3 table at 4096 whose entry 0 maps the first GiB for every access, and
bytes at an address. -/
def placedMemory (a : Nat) (bs : List Byte) : Mem :=
  MemOps.writeBytes [(0, 0x01), (1, 0x10), (4096, 0x3D)] a bs

/-- The placed grid, whose waves fetch these bytes. -/
def placedGrid (a : Nat) (bs : List Byte) : Grid :=
  { vd := 0, owner := 0, queue := none, parent := none, parentW := none, depth := 0, packet := placedPacket,
    launchG := 0, life := .running, nextNb := 1, drain := false, early := none, fixed := none, replay := none,
    textBase := 0, textLen := 0, image := placedMemory a bs, dict := [], state := 1, cause := 0, tpc := 0, tinfo := 0,
    debugged := false }

/-- The module with one grid on core 0 of die 0 whose only wave fetches the bytes next. -/
def State.placeGrid (s : State) (bs : List Byte) : State :=
  { s with
    agenda := []
    cur := none
    turn := false
    compass := none
    waves := [(4, Wave.start 1 2 3 0 placedPacket 0 0 0 0 1)]
    teams := [(3, { Team.start 1 2 0 0 placedPacket 0 0 0 with waves := [4] })]
    nbs := [(2, { grid := 1, index := 0, life := .placed, die := 0, origin := 0, teams := [3], image := none,
                  imageLen := 0, saveNo := 0 })]
    grids := [(1, placedGrid 0x4000 bs)]
    ops := []
    calls := []
    opNext := 5
    writeLog := []
    tlb := []
    msc := []
    dram := placedMemory 0x4000 bs
    dies := TabOps.put s.dies 0 { s.die 0 with service := .full }
    vds := TabOps.put s.vds 0 { s.vd 0 with
      ptroot := 0
      dies := 1 } }

/-- The bytes stored at a virtual address of a grid, in its launch image and at their homes; none where an address
does not translate for a fetch. -/
def State.placeAt (s : State) (at' gid : Nat) (g : Grid) (va : Word) : List Byte → Option State
  | [] => some s
  | b :: bs =>
    match s.translate at' g.vd va .fetch with
    | .error _ => none
    | .ok (_, pa) =>
      (s.homeWrite pa [b] true).modGrid gid (fun x => { x with image := MemOps.write x.image pa b })
        |>.placeAt at' gid g (va + 1) bs

/-- The bytes stored at the pc of the fragment that the scheduler picks, if one is picked and does not arrive at its
record instead. -/
def State.placeAtPick (s : State) (bs : List Byte) : Option State :=
  match s.due, s.pick with
  | none, some x =>
    (TabOps.find? s.waves x.wave).bind fun w =>
      (w.frag? x.frag).bind fun f =>
        (TabOps.find? s.grids w.grid).bind fun g =>
          if w.arrives f then none else (s.placeAt w.at' w.grid g f.pc bs).map (fun t =>
            t.modGrid w.grid (fun x => { x with logAt := t.writeLog.length }))
  | _, _ => none

/-- A policy run of one instruction. -/
def placedRun (w : BitVec 32) : PolicyRun :=
  { program := [w], vd := 0, pol := 0, event := .enqueue, pos := 0, regs := List.replicate 16 0, loop := none,
    steps := 0, view := [], evf := List.replicate 8 0 }

/-- The bytes of an instruction placed where the next step fetches its instruction; a word that is a Compass
instruction and no wave instruction runs in a policy run. -/
def State.placeBytes (s : State) (bs : List Byte) : State :=
  let w := Sys2Proof.wordOf (Sys2Proof.parcelOf (bs.getD 0 0) (bs.getD 1 0)) (Sys2Proof.parcelOf (bs.getD 2 0) (bs.getD 3 0))
  match s.compass with
  | some r => { s with compass := some { r with program := setAt r.program r.pos w } }
  | none =>
    match Sys2Proof.decodeBytes bs, Sys2Proof.decodeCompass w with
    | .error _, .ok _ => { s with compass := some (placedRun w) }
    | _, _ =>
      let s0 : State := { s with
        agenda := []
        turn := false }
      match s0.placeAtPick bs with
      | some t => t
      | none => s.placeGrid bs

end Sys2Proof.Machine
end

