-- ==== Sys2Proof/Machine/Step.lean ====
section
/-! DEFINITION. The step of the module, and the placing of one instruction where the next step fetches it. -/

namespace Sys2Proof.Machine

/-- One step of the module. -/
def step (s : State) : Host.Outcome State Fault Refusal := s.move

/-- The state with an instruction where the next step fetches its next one (log 4). -/
def State.withFetchWord (s : State) (nbits w : Nat) : State := s.placeBytes (Sys2Proof.tableBytes nbits w)

end Sys2Proof.Machine
end

