-- ==== Sys2Proof/Safety.lean ====
section
/-! DEFINITION. The terms of the statements: a safe run, the canonical form of the memories, and what the outcome of an
instruction leaves in its wave and in the module. -/

namespace Sys2Proof.Machine

/-! ### Runs and memories -/

/-- An outcome is a next state that satisfies p. -/
def NextWith (o : Out State) (p : State → Prop) : Prop := ∃ t, o = .next t ∧ p t

/-- The module goes on: no fault and no refusal. -/
def GoesOn (s : State) : Prop := ∃ t, step s = .next t

/-- Every memory of the state is in its canonical form (log 1): DRAM, the scratchpads, the launch images. -/
def MemoriesOk (s : State) : Prop :=
  Memory.wf s.dram = true ∧ (∀ t ∈ s.teams, Memory.wf t.2.sp = true) ∧ (∀ g ∈ s.grids, Memory.wf g.2.image = true)

/-! ### The start of an instruction -/

/-- The fragment of c executes; its instruction names only allocated registers (R95), none of them pending (R292) or
holding a status word that the wave has not read (R243); and no fault of the hardware waits for a repeated run (R271). -/
structure Ready (s : State) (c : Ctx) (ss vs : List Nat) : Prop where
  runs      : s.ctx? = some c
  allocated : c.w.budget ss vs = true
  arrived   : c.w.pendingAny ss = false
  observed  : ∀ r ∈ c.w.doneRegs, r ∉ ss
  unstruck  : c.w.faults = []

/-- The same for a vector instruction, whose latches are all of its own open chain (R42). -/
structure VecReady (s : State) (c : Ctx) (f : VecForm) : Prop where
  ready : Ready s c f.sregs f.vregs
  latch : ∀ i ∈ f.latches, i < c.open'.length

/-- No injected fault is armed, and no run of the open chain stands apart (R271, R274). -/
abbrev Quiet (w : Wave) : Prop := bit w.ginj 15 = false ∧ w.alts = []

/-! ### The wave after an instruction -/

/-- GST with the grade that GRLIM set in force (R279). -/
def Wave.gstNow (w : Wave) : Word :=
  match w.egNext with
  | some g => setBits w.gst 1 0 g.toNat
  | none => w.gst

/-- The execution grade in force once the open chain has ended (R279). -/
def Wave.egNow (w : Wave) : Grade := w.gstNow.extractLsb' 0 2

/-- The wave with its chain ended: no latch is valid, and GRLIM's grade is in force (R41, R82, R279). -/
def Wave.closed (w : Wave) : Wave :=
  { w with latches := [], alts := [], chainDis := false, egNext := none, gst := w.gstNow }

/-- The wave as a step outside an instruction leaves it whose fragment goes on or waits: its own chain ends, one of another
fragment goes on (R81, R162). -/
def State.closedFor (s : State) (wid fid : Nat) (w : Wave) : Wave :=
  if w.latches = [] ∨ w.chainFrag = fid ∨ s.cur.any (fun x => x.wave == wid && x.frag == fid) = true then w.closed else w

/-- A fragment that goes on at an address. -/
def Fragment.moved (f : Fragment) (pc : Word) : Fragment :=
  { f with pc := pc, park := .ready, plen := 0, waited := [], yielded := false, stalled := false }

/-- The wave of an instruction whose fragment goes on at an address: nothing else is changed. -/
def Wave.moved (w : Wave) (c : Ctx) (pc : Word) : Wave :=
  { w with frags := w.frags.set c.fid (some (c.f.moved pc)) }

/-- The address after the instruction (R43). -/
def Ctx.following (c : Ctx) : Word := c.f.pc + BitVec.ofNat 64 c.ilen

/-- The scalar registers after one is written with a tag; a write to S0 is discarded (R38, R39). -/
def sregsWith (w : Wave) (d : SReg) (v : Word) (g : Grade) : List SRegV :=
  if d = 0 then w.sregs else w.sregs.set d.toNat ⟨v, g⟩

/-- A wave after the runs of a repeated scalar instruction: at most GINJ's arm bit and GST's DISAGREE count differ, and
neither does where no injected fault is armed (R270, R271, R274). -/
def Repeated (w w' : Wave) : Prop :=
  { w' with gst := w.gst, ginj := w.ginj } = w ∧ w'.eg = w.eg ∧ (bit w.ginj 15 = false → w' = w)

/-- The outcome of a repeated scalar instruction that writes one scalar register and is followed by the next: the rest
of the module is as it was, memory included. -/
def WritesScalar (s : State) (c : Ctx) (o : Out State) (d : SReg) (v : Word) (g : Grade) : Prop :=
  ∃ w, Repeated c.w.closed w ∧
    o = .next (s.setWave c.wid ({ w with sregs := sregsWith c.w d v g }.moved c c.following))

/-- The outcome of an instruction that changes its wave only, and whose fragment goes on at an address. -/
def LeavesWave (s : State) (c : Ctx) (o : Out State) (w : Wave) (pc : Word) : Prop :=
  o = .next (s.setWave c.wid (w.moved c pc))

/-- The mask of every lane of a wave. -/
def Wave.everyLane (w : Wave) : LaneMask := BitVec.ofNat 128 (2 ^ w.width - 1)

/-- A vector register written in the active lanes: the others keep their values, the tag is the smaller one unless
every lane is active (R39, R45). -/
def vregWith (w : Wave) (mask : LaneMask) (old : VRegV) (lanes : Nat → Lane) (g : Grade) (poison : LaneMask) : VRegV :=
  { lanes := (List.range w.width).map (fun l => if mask.getLsbD l then lanes l else old.lane l)
    tag := if mask = w.everyLane then g else Grade.min g old.tag
    poison := (poison &&& mask) ||| (old.poison &&& ~~~mask) }

/-- The vector registers after an instruction with a 32-bit destination; K = 1 writes none, and so does an empty mask
(R39, R41, R45). -/
def vregsWith (w : Wave) (mask : LaneMask) (k : Bool) (d : VReg) (lanes : Nat → Lane) (g : Grade) (poison : LaneMask) :
    List VRegV :=
  if k = true ∨ mask = 0 then w.vregs
  else w.vregs.set d.toNat (vregWith w mask (w.v d.toNat) lanes g poison)

/-- What B0 holds after an instruction: the result in the active lanes, 0 elsewhere (R41). -/
def latchWith (w : Wave) (mask : LaneMask) (lanes : Nat → Lane) (g : Grade) (poison : LaneMask) : VRegV :=
  { lanes := (List.range w.width).map (fun l => if mask.getLsbD l then lanes l else 0), tag := g,
    poison := poison &&& mask }

/-- The wave as a vector instruction finds it: one that reads no latch heads a chain, so the chain before it has ended
(R40). -/
def Ctx.entered (c : Ctx) (f : VecForm) : Wave := if f.latches = [] then c.w.closed else c.w

/-- The latches that a vector instruction reads (R41). -/
def Ctx.chain (c : Ctx) (f : VecForm) : List VRegV := if f.latches = [] then [] else c.open'

/-- The wave after a vector instruction with a 32-bit destination, or none: its destination, its latch, sticky flags;
the fourth instruction of a chain ends it (R40, R41, R61). -/
def Ctx.vectorAfter (c : Ctx) (f : VecForm) (vregs : List VRegV) (b0 : VRegV) (flags : BitVec 6) : Wave :=
  let w := c.entered f
  let last := decide ((c.chain f).length = 3)
  let w' := { w with
    vregs := vregs
    aflg := w.aflg ||| flags.zeroExtend 14
    latches := if last then [] else b0 :: c.chain f
    chainFrag := c.fid }
  if last then w'.closed else w'

/-- The lanes of source i of a vector instruction, with its latches. -/
def Ctx.lanesOf (c : Ctx) (f : VecForm) (a : Src) (l : Nat) : Lane := ((c.entered f).source (c.chain f) a).lane l

/-- The smallest grade of a list of tags and the execution grade (R264). -/
def Ctx.lowest (c : Ctx) (f : VecForm) (xs : List VRegV) : Grade :=
  xs.foldl (fun g x => Grade.min g x.tag) (c.entered f).eg

/-- The union of the sources' poison (R116). -/
def poisonOf (xs : List VRegV) : LaneMask := xs.foldl (fun p x => p ||| x.poison) 0

/-- The sources of a vector instruction: its codes in order, then, where the form has a third source, SRCC with a
modifier word, else the destination register (R79). -/
def Ctx.sources (c : Ctx) (f : VecForm) : List VRegV :=
  f.src.map ((c.entered f).source (c.chain f)) ++
    (if f.third then
      (match f.m, f.dst with
       | some m, _ => [(c.entered f).source (c.chain f) m.srcc]
       | none, .v32 d => [(c.entered f).v d.toNat]
       | none, _ => [])
     else [])

/-- Lane l of source i. -/
def Ctx.sourceLane (c : Ctx) (f : VecForm) (i l : Nat) : Lane := ((c.sources f).getD i ⟨[], 0, 0⟩).lane l

/-- The outcome of an arithmetic vector instruction with destination d whose result in each active lane is a value with
flags: destination, tag, poison and latch as R39, R41, R116 and R264 give them, the flags united into AFLG. -/
def WritesLanes (s : State) (c : Ctx) (o : Out State) (f : VecForm) (d : VReg) (x : Nat → Lane × BitVec 6) : Prop :=
  let g := c.lowest f (c.sources f)
  let p := poisonOf (c.sources f)
  let flags := (List.range c.w.width).foldl (fun fl l => fl ||| if c.f.mask.getLsbD l then (x l).2 else 0) 0
  LeavesWave s c o
    (c.vectorAfter f (vregsWith (c.entered f) c.f.mask f.k d (fun l => (x l).1) g p)
      (latchWith c.w c.f.mask (fun l => (x l).1) g p) flags) c.following

/-- The mask of the lanes of a wave that satisfy p. -/
def laneSet (w : Wave) (p : Nat → Bool) : LaneMask :=
  (List.range w.width).foldl (fun m l => if p l then m ||| (1#128 <<< l) else m) 0

/-- The outcome of a vector instruction with destination d whose lanes, poison and tag are given. -/
def WritesMoved (s : State) (c : Ctx) (o : Out State) (f : VecForm) (d : VReg) (x : Nat → Lane) (p : Nat → Bool)
    (g : Grade) : Prop :=
  let q := laneSet c.w (fun l => c.f.mask.getLsbD l && p l)
  LeavesWave s c o (c.vectorAfter f (vregsWith (c.entered f) c.f.mask f.k d x g q) (latchWith c.w c.f.mask x g q) 0)
    c.following

/-- The outcome of a vector compare: bit l of the scalar pair S[32 + 2q] is the condition in active lane l, 0 in the
others; no flag, no latch, and the chain has ended (R40, R121). -/
def WritesPair (s : State) (c : Ctx) (o : Out State) (f : VecForm) (q : BitVec 4) (x : Nat → Bool) : Prop :=
  let m := laneSet c.w (fun l => c.f.mask.getLsbD l && x l)
  let g := c.lowest f (c.sources f)
  let lo := sregsWith c.w (BitVec.ofNat 6 (32 + 2 * q.toNat)) (m.extractLsb' 0 64) g
  LeavesWave s c o
    { c.w.closed with
      sregs := sregsWith { c.w with sregs := lo } (BitVec.ofNat 6 (33 + 2 * q.toNat)) (m.extractLsb' 64 64) g
      chainFrag := c.fid } c.following

/-- The outcome of a vector instruction with a 64-bit destination pair, with flags: both registers get one tag and one
poison mask; no latch, and the chain has ended (R39, R40). -/
def WritesWide (s : State) (c : Ctx) (o : Out State) (f : VecForm) (d : VReg) (x : Nat → Word) (p : LaneMask)
    (g : Grade) (flags : BitVec 6) : Prop :=
  let w := c.entered f
  let lo := w.v d.toNat
  let hi := w.v (d.toNat + 1)
  let tag := if c.f.mask = w.everyLane then g else Grade.min g (Grade.min lo.tag hi.tag)
  let bad := (p &&& c.f.mask) ||| ((lo.poison ||| hi.poison) &&& ~~~c.f.mask)
  let reg := fun (old : VRegV) (part : Nat → Lane) =>
    (⟨(List.range w.width).map (fun l => if c.f.mask.getLsbD l then part l else old.lane l), tag, bad⟩ : VRegV)
  LeavesWave s c o
    { c.w.closed with
      vregs := if c.f.mask = 0 then c.w.vregs
        else (c.w.vregs.set d.toNat (reg lo (fun l => (x l).extractLsb' 0 32))).set (d.toNat + 1)
          (reg hi (fun l => (x l).extractLsb' 32 32))
      aflg := c.w.aflg ||| flags.zeroExtend 14
      chainFrag := c.fid } c.following

/-! ### Integers -/

/-- An exact integer into n bits: modulo 2^n, or clamped to the signed range (SAT 1) or the unsigned one (SAT 2), with
AFLG.SAT where clamping changes it (R51, R119). -/
def fitted (n : Nat) (sat : BitVec 2) (v : Int) : BitVec n × BitVec 6 :=
  if sat = 1 then
    (BitVec.ofInt n (max (-2 ^ (n - 1)) (min (2 ^ (n - 1) - 1) v)),
      if v < -2 ^ (n - 1) ∨ 2 ^ (n - 1) ≤ v then 1 else 0)
  else if sat = 2 then
    (BitVec.ofInt n (max 0 (min (2 ^ n - 1) v)), if v < 0 ∨ 2 ^ n ≤ v then 1 else 0)
  else (BitVec.ofInt n v, 0)

/-- A pattern as R119 reads it, negated where its modifier says so. -/
def exactly (r : IntRead) (sat : BitVec 2) (neg : Bool) (p : Lane) : Int :=
  let v : Int := match r with
    | .signed => p.toInt
    | .unsigned => p.toNat
    | .untyped => if sat = 2 then p.toNat else p.toInt
  if neg then -v else v

/-- A bitwise operation on integers in two's complement. -/
def onBits (g : BitVec 64 → BitVec 64 → BitVec 64) (x y : Int) : Int := (g (BitVec.ofInt 64 x) (BitVec.ofInt 64 y)).toInt

/-! ### Memory -/

/-- A physical address where the home keeps the check bytes or the second copy of a line whose page a walk had reached
before an instruction or has reached after it (R260). -/
def CodeAt (s t : State) (pa : Nat) : Prop :=
  ∃ line c, (s.knownCode line = some c ∨ t.knownCode line = some c) ∧ c.grade ≠ 0
    ∧ ((c.checkAt line ≤ pa ∧ pa < c.checkAt line + checkLen c.grade.toNat)
      ∨ (c.grade = 3 ∧ c.mirrorAt line ≤ pa ∧ pa < c.mirrorAt line + 128))

/-- No home holds a line that it would find bad (R259, R261). -/
abbrev State.Sound (s : State) : Prop := s.poisoned = [] ∧ s.errors = [] ∧ s.transit = []

/-- A home byte that an instruction does not store to changes only by write-back and eviction: it is the byte that stood
there, or the one in DRAM behind an MSC byte that was given up, or a byte that stood dirty in an L1 (R189, R190, R194),
or one of the home's codes (R260). Where a walk meets a bad line, an error record is written besides (R269); this is said of
homes that hold none. -/
def MemoryFrame (s t : State) (stored : Nat → Prop) : Prop :=
  s.Sound → ∀ pa, ¬ stored pa → t.homeByte pa = s.homeByte pa ∨ t.homeByte pa = MemOps.read s.dram pa ∨ CodeAt s t pa
    ∨ ∃ key l, s.l1 key (pa / 128) = some l ∧ l.dirty.getLsbD (pa % 128) = true ∧ t.homeByte pa = l.data.getD (pa % 128) 0

/-- The outcome of an instruction that leaves its wave as w, no other wave, team or grid changed, and memory as
MemoryFrame says. -/
def LeavesOnly (s : State) (c : Ctx) (o : Out State) (w : Wave) : Prop :=
  NextWith o fun t => TabOps.find? t.waves c.wid = some w
    ∧ (∀ j, j ≠ c.wid → TabOps.find? t.waves j = TabOps.find? s.waves j) ∧ t.teams = s.teams ∧ t.grids = s.grids
    ∧ MemoryFrame s t (fun _ => False)

/-- The same for one that goes on with the next instruction. -/
abbrev KeepsMemory (s : State) (c : Ctx) (o : Out State) (w : Wave) : Prop :=
  LeavesOnly s c o (w.moved c c.following)

/-- The byte that a list of stores gives an address: the last one that covers it. -/
def storedAt (ws : List (Nat × List Byte)) (pa : Nat) : Option Byte :=
  ws.foldl (fun o w => if w.1 ≤ pa ∧ pa < w.1 + w.2.length then some (w.2.getD (pa - w.1) 0) else o) none

/-- No other L1 than that of a core holds a byte dirty. -/
def OnlyHere (s : State) (key pa : Nat) : Prop :=
  ∀ j l, j ≠ key → s.l1 j (pa / 128) = some l → l.dirty.getLsbD (pa % 128) = false

/-- The outcome of a store: the wave is left as w, the bytes stored read back on the wave's own core, or in its replay
(R241), unless a CXL port is down, the byte is one of the home's codes or another L1 holds it dirty (a data race), and every
other byte is as MemoryFrame says. -/
def StoresMemory (s : State) (c : Ctx) (o : Out State) (w : Wave) (ws : List (Nat × List Byte)) : Prop :=
  NextWith o fun t => TabOps.find? t.waves c.wid = some (w.moved c c.following)
    ∧ (∀ j, j ≠ c.wid → TabOps.find? t.waves j = TabOps.find? s.waves j) ∧ t.teams = s.teams ∧ t.grids = s.grids
    ∧ MemoryFrame s t (fun pa => storedAt ws pa ≠ none)
    ∧ ((∀ line, s.lineDown line = false) → ∀ pa b, storedAt ws pa = some b → ¬ CodeAt s t pa →
        OnlyHere s ((c.route s).slice pa) pa → t.viewBytes (c.route s) pa false 1 = [b])

/-- The bytes that a load of these parts sees on its core: at a scope wider than the sharing scope, past clean L1 bytes
(R210). -/
def seenBytes (s : State) (c : Ctx) (wide : Bool) (ps : List Part) : List Byte :=
  ps.flatMap (fun p => s.viewBytes (c.route s) p.pa wide p.n)

/-- Every port behind which the parts must be waited for in the CXL tier has been waited for already (R351). -/
abbrev Waited (s : State) (c : Ctx) (r : Route) (wide : Bool) (ps : List Part) : Prop :=
  ∀ p ∈ ps, ∀ k ∈ s.fromCxl r wide p, k.1 ∈ c.f.waited

/-- No byte of the parts is bad where a load would read it, and none must still be waited for in the CXL tier (R259,
R351). -/
abbrev Served (s : State) (c : Ctx) (wide : Bool) (ps : List Part) : Prop :=
  s.badLines (c.route s) wide ps = [] ∧ Waited s c (c.route s) wide ps

/-- The smallest grade of the pages of a list of parts. -/
def lowestPage (ps : List Part) : Grade := ps.foldl (fun g p => Grade.min g p.leaf.grade) 3

/-- The vector registers after a load: a register, or an even pair for a 64-bit type (R39, R142). -/
def vregsLoaded (w : Wave) (mask : LaneMask) (d : VReg) (wide : Bool) (val : Nat → Lane × Lane) (g : Grade)
    (p : LaneMask) : List VRegV :=
  let lo := w.v d.toNat
  let hi := w.v (d.toNat + 1)
  let reg := fun (old : VRegV) (part : Nat → Lane) =>
    (⟨(List.range w.width).map (fun l => if mask.getLsbD l then part l else old.lane l),
      if mask = w.everyLane then g else Grade.min g (Grade.min lo.tag hi.tag),
      (p &&& mask) ||| ((lo.poison ||| hi.poison) &&& ~~~mask)⟩ : VRegV)
  if mask = 0 then w.vregs
  else if wide then (w.vregs.set d.toNat (reg lo (fun l => (val l).1))).set (d.toNat + 1) (reg hi (fun l => (val l).2))
  else w.vregs.set d.toNat (vregWith w mask lo (fun l => (val l).1) g p)

/-- The active lanes of the executing fragment, in rising order. -/
def Ctx.active (c : Ctx) : List Nat := (List.range c.w.width).filter (fun l => c.f.mask.getLsbD l)

/-- The wave whose fragment raised causes and enters its handler: the causes are set, the trap registers written, the
latches gone, the mask as it was, the handler at an even address (R38, R343; log 65). The information word of INTEG is the
origin latch. -/
def Ctx.trapped (c : Ctx) (causes info : Word) : Wave :=
  { c.w.closed with
    cause := c.w.cause ||| causes
    tpc := c.f.pc
    tmask := c.f.mask
    ilen := BitVec.ofNat 4 c.ilen
    tinfo := if causes.getLsbD 10 then c.w.origin.getD 0 else info
    inh := some c.fid
    frags := c.w.frags.set c.fid (some (c.f.moved (c.g.packet.tvec &&& ~~~1))) }

/-- The wave that a state holds under a number satisfies p. -/
def WaveIs (t : State) (i : Nat) (p : Wave → Prop) : Prop := ∃ w, TabOps.find? t.waves i = some w ∧ p w

/-- The team that a state holds under a number satisfies p. -/
def TeamIs (t : State) (i : Nat) (p : Team → Prop) : Prop := ∃ u, TabOps.find? t.teams i = some u ∧ p u

/-- The outcome of a fragment that raises causes: the handler is entered; or, while another fragment of the wave is in
its handler, it waits; or, inside its own handler or without one, every wave of its grid ends and the grid stops with
the trap registers of this delivery (R343 to R345). -/
def Traps (s : State) (c : Ctx) (o : Out State) (causes info : Word) : Prop :=
  let v := c.trapped causes info
  (c.w.inh = none → c.g.packet.tvec ≠ 0 → o = .next (s.setWave c.wid v))
  ∧ (∀ j, c.w.inh = some j → j ≠ c.fid → o = .next (s.setWave c.wid { c.w.closed with
      cause := c.w.cause ||| causes
      frags := c.w.frags.set c.fid (some { c.f with
        park := .trapWait causes info
        plen := c.ilen
        since := (s.core (c.w.die * 48 + c.w.core)).cycle
        waited := [] }) }))
  ∧ (c.w.inh = some c.fid ∨ (c.w.inh = none ∧ c.g.packet.tvec = 0) → c.g.life ≠ .retired → NextWith o fun t =>
      t.dram = s.dram ∧ t.msc = s.msc ∧ t.queues = s.queues
      ∧ TabOps.find? t.grids c.w.grid = some { c.g with
          life := .stopping, state := 2, cause := v.cause, tpc := v.tpc, tinfo := v.tinfo }
      ∧ ∀ i w, TabOps.find? s.waves i = some w → w.grid = c.w.grid → w.life ≠ .ended →
          WaveIs t i fun w' => w'.life = .ended ∧ w'.evpend = 0 ∧ ∀ k, w'.frag? k = none)

/-- The fragment waits at its instruction: nothing else of its wave is changed. -/
def Wave.parked (w : Wave) (s : State) (c : Ctx) (p : Park) : Wave :=
  let now := (s.core (c.w.die * 48 + c.w.core)).cycle
  { w with frags := w.frags.set c.fid (some { c.f with park := p, plen := c.ilen, since := now }) }

/-- The outcome of an instruction that joins an operation to its class's open batch: the operation stands in the state
under the next number, its completion register is pending, nothing else of the wave is changed, and memory is as
MemoryFrame says. `more` says what else holds. -/
def Starts (s : State) (c : Ctx) (o : Out State) (body : OpBody) (d : SReg) (cls : BitVec 2) (more : State → Prop) :
    Prop :=
  NextWith o fun t =>
    TabOps.find? t.ops s.opNext = some
      { body := body, wave := c.wid, grid := c.w.grid, team := c.w.team, die := c.w.die, core := c.w.core, vd := c.g.vd,
        sd := if d = 0 then none else some d.toNat, cls := cls, eg := c.w.egNow, life := .queued, queue := none,
        fault := 0, shadow := c.g.shadow, issueDie := c.w.issueDie, lanes := c.f.lanes }
    ∧ t.opNext = s.opNext + 1
    ∧ WaveIs t c.wid (fun w =>
        let b := c.w.batches.getD cls.toNat { cl := 0, dn := 0, opened := [], closed := [] }
        w = { c.w.closed with
          batches := c.w.batches.set cls.toNat { b with opened := b.opened ++ [s.opNext] }
          pendRegs := if d = 0 then c.w.pendRegs else c.w.pendRegs ++ [(d.toNat, s.opNext)] }.moved c c.following)
    ∧ MemoryFrame s t (fun _ => False) ∧ more t

end Sys2Proof.Machine
end

