-- ==== Sys2Proof/Certificates/Slice0/Obligations.lean ====
section
/-! DEFINITION. The statements for the provers, one `def Obligations.<Name> : Prop` each. Every statement about an
instruction says that `exec` answers a next state and which one. -/

open Sys2Proof Sys2Proof.Machine

/-! ### Scalar instructions -/

/-- R96, R98, R99, R264: the integer arithmetic and logic instructions write the result that the table gives, tagged with
the smallest of the sources' tags and the execution grade; S0 as destination discards it; nothing else of the module
changes. A division by 0 gives its stated value. SCLZ counts leading zero bits, SPOPC one bits; SBFX and SBFI take and
replace the field that b describes, bits b[5:0] up, b[13:8] + 1 of them, as far as bit 63; SSEL takes a where its
destination is not zero, else b; SBFI and SSEL read their destination, whose tag counts too. -/
def Obligations.ScalarArithmetic : Prop :=
  (∀ (s : State) (c : Ctx) (d a b : SReg), Ready s c [d.toNat, a.toNat, b.toNat] [] →
    let x := c.w.s a
    let y := c.w.s b
    let n := y.toNat % 64
    ∀ p ∈ ([(.sadd d a b, x + y), (.ssub d a b, x - y), (.smul d a b, x * y),
      (.smulh d a b, (x.signExtend 128 * y.signExtend 128).extractLsb' 64 64),
      (.smulhz d a b, (x.zeroExtend 128 * y.zeroExtend 128).extractLsb' 64 64),
      (.sdiv d a b, if y = 0 then BitVec.allOnes 64 else x.sdiv y),
      (.sdivz d a b, if y = 0 then BitVec.allOnes 64 else x.udiv y),
      (.srem d a b, if y = 0 then x else x.srem y), (.sremz d a b, if y = 0 then x else x.umod y),
      (.sand d a b, x &&& y), (.sor d a b, x ||| y), (.sxor d a b, x ^^^ y),
      (.sshl d a b, x <<< n), (.sshr d a b, x >>> n), (.ssra d a b, x.sshiftRight n), (.srol d a b, x.rotateLeft n),
      (.smin d a b, if x.toInt ≤ y.toInt then x else y), (.smax d a b, if x.toInt ≤ y.toInt then y else x),
      (.sminz d a b, if x.toNat ≤ y.toNat then x else y), (.smaxz d a b, if x.toNat ≤ y.toNat then y else x),
      (.sbfx d a b, BitVec.ofNat 64 (x.toNat / 2 ^ n % 2 ^ (y.toNat / 256 % 64 + 1)))] : List (Instr × Word)),
    WritesScalar s c (exec p.1 s) d p.2 (Grade.min (Grade.min c.w.egNow (c.w.stag a)) (c.w.stag b)))
  ∧ (∀ (s : State) (c : Ctx) (d a : SReg), Ready s c [d.toNat, a.toNat] [] →
    let x := c.w.s a
    let g := Grade.min c.w.egNow (c.w.stag a)
    (∃ n : Nat, n ≤ 64 ∧ x.toNat < 2 ^ (64 - n) ∧ (n < 64 → 2 ^ (63 - n) ≤ x.toNat)
      ∧ WritesScalar s c (exec (.sclz d a) s) d (BitVec.ofNat 64 n) g)
    ∧ WritesScalar s c (exec (.spopc d a) s) d (BitVec.ofNat 64 ((List.range 64).filter x.getLsbD).length) g)
  ∧ (∀ (s : State) (c : Ctx) (d a b : SReg), Ready s c [d.toNat, a.toNat, b.toNat] [] →
    let y := c.w.s b
    let lo := y.toNat % 64
    let len := y.toNat / 256 % 64 + 1
    let g := Grade.min (Grade.min (Grade.min c.w.egNow (c.w.stag d)) (c.w.stag a)) (c.w.stag b)
    (∃ r : Word, (∀ i < 64, r.getLsbD i =
        if lo ≤ i ∧ i < lo + len then (c.w.s a).getLsbD (i - lo) else (c.w.s d).getLsbD i)
      ∧ WritesScalar s c (exec (.sbfi d a b) s) d r g)
    ∧ WritesScalar s c (exec (.ssel d a b) s) d (if c.w.s d ≠ 0 then c.w.s a else y) g)

/-- R100, R101: the immediate forms, with imm13 sign-extended, and SLUI, whose value is imm19 << 13 sign-extended from
bit 31, tagged EG; SLEA adds b shifted left by 0 to 7. A word of an immediate shift whose imm13 is above 63 is no
instruction. -/
def Obligations.ScalarImmediates : Prop :=
  (∀ (s : State) (c : Ctx) (d a b : SReg) (i : BitVec 13) (n : BitVec 6) (u : BitVec 19) (h : BitVec 3),
    Ready s c [d.toNat, a.toNat] [] →
    let x := c.w.s a
    (∀ p ∈ ([(.saddi d a i, x + i.signExtend 64), (.sandi d a i, x &&& i.signExtend 64),
        (.sori d a i, x ||| i.signExtend 64), (.sxori d a i, x ^^^ i.signExtend 64),
        (.sshli d a n, x <<< n.toNat), (.sshri d a n, x >>> n.toNat),
        (.ssrai d a n, x.sshiftRight n.toNat)] : List (Instr × Word)),
      WritesScalar s c (exec p.1 s) d p.2 (Grade.min c.w.egNow (c.w.stag a)))
    ∧ WritesScalar s c (exec (.slui d u) s) d ((u.zeroExtend 32 <<< 13).signExtend 64) c.w.egNow
    ∧ (Ready s c [d.toNat, a.toNat, b.toNat] [] →
        WritesScalar s c (exec (.slea d a b h) s) d (x + c.w.s b * BitVec.ofNat 64 (2 ^ h.toNat))
          (Grade.min (Grade.min c.w.egNow (c.w.stag a)) (c.w.stag b))))
  ∧ ∀ w : BitVec 32, w.getLsbD 31 = true → 6 ≤ (w.extractLsb' 25 6).toNat → (w.extractLsb' 25 6).toNat ≤ 8 →
    64 ≤ (w.extractLsb' 0 13).toNat → ∃ e, decode (.word w) = .error e

/-- R89, R102: SCMP and SCMPI write FLG alone: N the sign of the wrapped difference, Z equality, C no unsigned borrow, V
that the exact signed difference does not fit 64 bits; and after a compare of x with y the conditions of BC say what their
names say: EQ, NE, LT, GE, LE, GT of the signed values, LO, HS, LS, HI of the unsigned ones. -/
def Obligations.ScalarCompares : Prop :=
  (∀ (s : State) (c : Ctx) (a b : SReg) (i : BitVec 13),
    let flags := fun (x y : Word) => BitVec.ofBool (x - y).msb ++ BitVec.ofBool (decide (x = y))
      ++ BitVec.ofBool (decide (y.toNat ≤ x.toNat))
      ++ BitVec.ofBool (decide (x.toInt - y.toInt < -2 ^ 63 ∨ 2 ^ 63 ≤ x.toInt - y.toInt))
    let sets := fun (i : Instr) (y : Word) => ∃ w, Repeated c.w.closed w ∧
      exec i s = .next (s.setWave c.wid ({ w with flg := flags (c.w.s a) y }.moved c c.following))
    (Ready s c [a.toNat, b.toNat] [] → sets (.scmp a b) (c.w.s b))
    ∧ (Ready s c [a.toNat] [] → sets (.scmpi a i) (i.signExtend 64)))
  ∧ (∀ x y : Word, let holds := fun (k : BitVec 4) => condHolds k (compareFlags x y)
    (holds 0 = true ↔ x = y) ∧ (holds 1 = true ↔ x ≠ y)
    ∧ (holds 2 = true ↔ x.toInt < y.toInt) ∧ (holds 3 = true ↔ y.toInt ≤ x.toInt)
    ∧ (holds 4 = true ↔ x.toInt ≤ y.toInt) ∧ (holds 5 = true ↔ y.toInt < x.toInt)
    ∧ (holds 6 = true ↔ x.toNat < y.toNat) ∧ (holds 7 = true ↔ y.toNat ≤ x.toNat)
    ∧ (holds 8 = true ↔ x.toNat ≤ y.toNat) ∧ (holds 9 = true ↔ y.toNat < x.toNat))


/-- R43, R89, R103, R104: a taken branch goes to its own address plus 2 × its signed offset, else to the next
instruction; JMPR and RET go to their register with bit 0 cleared. No register, flag or memory changes. -/
def Obligations.Branches : Prop :=
  ∀ (s : State) (c : Ctx) (a : SReg) (k : BitVec 4) (o : BitVec 25) (q : BitVec 15), s.ctx? = some c →
    let far := c.f.pc + 2 * o.signExtend 64
    let near := c.f.pc + 2 * q.signExtend 64
    let n := c.w.flg.getLsbD 3
    let z := c.w.flg.getLsbD 2
    let cf := c.w.flg.getLsbD 1
    let v := c.w.flg.getLsbD 0
    LeavesWave s c (exec (.br o) s) c.w.closed far
    ∧ LeavesWave s c (exec (.bmz q) s) c.w.closed (if c.f.mask = 0 then near else c.following)
    ∧ LeavesWave s c (exec (.bmnz q) s) c.w.closed (if c.f.mask ≠ 0 then near else c.following)
    ∧ (∀ p ∈ ([(0, z), (1, !z), (2, n != v), (3, n == v), (4, z || n != v), (5, !z && n == v), (6, !cf), (7, cf),
          (8, !cf || z), (9, cf && !z), (10, n), (11, !n), (12, v), (13, !v), (14, true)] : List (BitVec 4 × Bool)),
        p.1 = k → LeavesWave s c (exec (.bc k q) s) c.w.closed (if p.2 then near else c.following))
    ∧ (Ready s c [a.toNat] [] →
        LeavesWave s c (exec (.jmpr a) s) c.w.closed (c.w.s a &&& ~~~1)
        ∧ LeavesWave s c (exec (.ret a) s) c.w.closed (c.w.s a &&& ~~~1))

/-- A call target has a legal function header (R105): it is a multiple of 4 and the word there, read as a fetch reads,
carries the mark 0xE0A5, a zero bit 7, and register counts that the wave has. -/
def HeaderAt (s : State) (c : Ctx) (t : Word) : Prop :=
  t.toNat % 4 = 0 ∧ ∃ h : BitVec 32, s.fetchWord c.wid c.w c.g t = .ok h ∧ h.toNat / 2 ^ 16 = 0xE0A5 ∧ h.getLsbD 7 = false
    ∧ 1 ≤ h.toNat / 256 % 256 ∧ h.toNat / 256 % 256 ≤ 128 ∧ 1 ≤ h.toNat % 128 ∧ h.toNat % 128 ≤ 64
    ∧ h.toNat / 256 % 256 ≤ c.w.nv ∧ h.toNat % 128 ≤ c.w.ns

/-- R105 to R107: CALL writes its return address to S63 and goes on 4 bytes after the target's header. CALLI writes it
to its own register; with no active lane it goes on with the next instruction, with one target in all active lanes
after that target's header; where the fragment was to evaluate a CALLI again for its deferred lanes, that is done. The
read of a header leaves what a fetch leaves, and no byte of memory changed. The model's choices in it: log 32, log 74. -/
def Obligations.Calls : Prop :=
  ∀ (s : State) (c : Ctx) (o : BitVec 25) (d : SReg) (v : BitVec 7) (t : Word),
    let linked := fun (r : SReg) => { c.w.closed with sregs := sregsWith c.w r c.following c.w.egNow }
    let called := { linked d with recs := match c.again c.w with
      | some (q, r, k) => c.w.recs.set q (some { r with call := some { k with again := false } })
      | none => c.w.recs }
    (Ready s c [63] [] → HeaderAt s c (c.f.pc + 2 * o.signExtend 64) →
      LeavesOnly s c (exec (.call o) s) ((linked 63).moved c (c.f.pc + 2 * o.signExtend 64 + 4)))
    ∧ (Ready s c [d.toNat] [v.toNat, v.toNat + 1] →
        (c.f.mask = 0 → LeavesWave s c (exec (.calli d v) s) called c.following)
        ∧ ((∃ l < c.w.width, c.f.mask.getLsbD l = true) →
            (∀ l < c.w.width, c.f.mask.getLsbD l = true →
              (c.w.v (v.toNat + 1)).lane l ++ (c.w.v v.toNat).lane l = t) →
            ((c.w.v v.toNat).poison ||| (c.w.v (v.toNat + 1)).poison) &&& c.f.mask = 0 → HeaderAt s c t →
            LeavesOnly s c (exec (.calli d v) s) (called.moved c (t + 4))))

/-- R110: the mask instructions. A mask operand is one bit per lane: the low bits of a register, or of an even pair in a
wave of 128 lanes, where an odd one raises ILLOP. MASKGET writes MASK, MPOPC the number of active lanes; the others give
the fragment a new MASK. That this ILLOP comes before every other check is the model's choice (log 58), and so is that its
handler is entered at TVEC with bit 0 cleared (log 65). -/
def Obligations.Masks : Prop :=
  ∀ (s : State) (c : Ctx) (a : SReg),
    let odd := c.w.width = 128 ∧ a.toNat % 2 = 1
    let regs := if c.w.width = 128 then [a.toNat, a.toNat + 1] else [a.toNat]
    let x : LaneMask := (if c.w.width = 128 then c.w.s (a + 1) ++ c.w.s a else (c.w.s a).zeroExtend 128)
      &&& c.w.everyLane
    let one := sregsWith c.w a (c.f.mask.extractLsb' 0 64) c.w.egNow
    let pair := sregsWith { c.w with sregs := one } (a + 1) (c.f.mask.extractLsb' 64 64) c.w.egNow
    let masked := fun (i : Instr) (m : LaneMask) => exec i s = .next (s.setWave c.wid { c.w.closed with
      frags := c.w.frags.set c.fid (some { c.f.moved c.following with mask := m }) })
    (Ready s c regs [] → ¬ odd →
      masked (.maskset a) (x &&& c.f.lanes) ∧ masked (.mand a) (c.f.mask &&& x)
      ∧ masked (.mandn a) (c.f.mask &&& ~~~x) ∧ masked (.mor a) ((c.f.mask ||| x) &&& c.f.lanes)
      ∧ LeavesWave s c (exec (.maskget a) s)
          { c.w.closed with sregs := if c.w.width = 128 then pair else one } c.following)
    ∧ (Ready s c [a.toNat] [] → LeavesWave s c (exec (.mpopc a) s) { c.w.closed with
        sregs := sregsWith c.w a (BitVec.ofNat 64 ((List.range 128).filter c.f.mask.getLsbD).length) c.w.egNow }
        c.following)
    ∧ (s.ctx? = some c → odd → ∀ i ∈ [Instr.maskset a, .mand a, .mandn a, .mor a, .maskget a],
        Traps s c (exec i s) 1 0)

/-- R46, R111, R268, R274, R341, R342: SRD writes what the special register holds, tagged EG, and changes nothing
else; SWR writes the writable bits of its special register and nothing else; INTEG going from 1 to 0 empties the
origin latch; GINJ is written only where the device has injection enabled. -/
def Obligations.SpecialRegisters : Prop :=
  (∀ (s : State) (c : Ctx) (d : SReg), Ready s c [d.toNat] [] →
    let w := c.w
    let p := c.g.packet
    let nat := BitVec.ofNat 64
    ∀ r ∈ ([(0x000, w.flg.zeroExtend 64), (0x001, w.aflg.zeroExtend 64), (0x002, w.gstNow), (0x003, w.cause),
      (0x004, w.tpc), (0x005, w.tmask.extractLsb' 0 64), (0x006, w.tmask.extractLsb' 64 64),
      (0x007, w.evpend.zeroExtend 64), (0x008, w.evmask.zeroExtend 64), (0x009, p.tvec),
      (0x00A, (s.core (w.die * 48 + w.core)).cycle), (0x00B, w.tinfo),
      (0x00C, nat (4 * w.ilen.toNat + (if w.drain then 2 else 0) + (if w.inh = none then 0 else 1))),
      (0x020, nat w.idx), (0x021, nat c.t.waves.length), (0x022, nat w.width),
      (0x023, nat (c.t.index % p.gridX)), (0x024, nat (c.t.index / p.gridX % p.gridY)),
      (0x025, nat (c.t.index / p.gridX / p.gridY)), (0x026, nat p.gridX), (0x027, nat p.gridY), (0x028, nat p.gridZ),
      (0x029, nat (w.die * 64 + w.core)), (0x02A, nat c.t.mapSlot), (0x02B, nat c.g.depth),
      (0x030, if (s.vd c.g.vd).inj then w.ginj else 0)]
      ++ (List.range 16).map (fun k => (BitVec.ofNat 12 (0x010 + k), w.evv.getD k 0)) : List (BitVec 12 × Word)),
    LeavesWave s c (exec (.srd d r.1) s) { w.closed with sregs := sregsWith w d r.2 w.egNow } c.following)
  ∧ (∀ (s : State) (c : Ctx) (a : SReg), Ready s c [a.toNat] [] →
    let w := c.w.closed
    let v := c.w.s a
    ∀ r ∈ ([(0x000, { w with flg := v.extractLsb' 0 4 }),
      (0x001, { w with aflg := v.extractLsb' 8 6 ++ w.aflg.extractLsb' 6 2 ++ v.extractLsb' 0 6 }),
      (0x002, { w with gst := (w.gst &&& ~~~0xFFFFFFFF0004#64) ||| (v &&& 0xFFFFFFFF0004#64) }),
      (0x003, { w with
        cause := v &&& 0x3F1FFFFFFF#64
        origin := if w.cause.getLsbD 10 = true ∧ v.getLsbD 10 = false then none else w.origin }),
      (0x004, { w with tpc := v }),
      (0x005, { w with tmask := (w.tmask.extractLsb' 64 64 ++ v) &&& w.everyLane }),
      (0x006, if w.width = 128 then { w with tmask := v ++ w.tmask.extractLsb' 0 64 } else w),
      (0x030, if (s.vd c.g.vd).inj then { w with ginj := v &&& 0x1FE0000FFFF#64 } else w)] : List (BitVec 12 × Wave)),
    LeavesWave s c (exec (.swr a r.1) s) r.2 c.following)


/-! ### Vector arithmetic -/

/-- R39, R41, R51, R78, R116, R118 to R120, R264: the integer instructions of two sources, and VMAD and VSEL with
their third, in each active lane: exact integers, one fit into 32 bits under SAT. The model's choices in it: log 13. -/
def Obligations.VectorIntegers : Prop :=
  ∀ (s : State) (c : Ctx) (m : Option ModWord) (k : Bool) (d : VReg) (a b : Src),
    ∀ p ∈ ([(.vadd m k d a b, false, .untyped, fun x y _ => x + y), (.vsub m k d a b, false, .untyped, fun x y _ => x - y),
      (.vmul m k d a b, false, .untyped, fun x y _ => x * y),
      (.vmulhI32 m k d a b, false, .signed, fun x y _ => x * y / 2 ^ 32),
      (.vmulhZ32 m k d a b, false, .unsigned, fun x y _ => x * y / 2 ^ 32),
      (.vminI32 m k d a b, false, .signed, fun x y _ => if x ≤ y then x else y),
      (.vminZ32 m k d a b, false, .unsigned, fun x y _ => if x ≤ y then x else y),
      (.vmaxI32 m k d a b, false, .signed, fun x y _ => if x ≤ y then y else x),
      (.vmaxZ32 m k d a b, false, .unsigned, fun x y _ => if x ≤ y then y else x),
      (.vand m k d a b, false, .untyped, fun x y _ => onBits (· &&& ·) x y),
      (.vor m k d a b, false, .untyped, fun x y _ => onBits (· ||| ·) x y),
      (.vxor m k d a b, false, .untyped, fun x y _ => onBits (· ^^^ ·) x y),
      (.vshl m k d a b, false, .untyped, fun x y _ => x * 2 ^ (y % 32).toNat),
      (.vshr m k d a b, false, .unsigned, fun x y _ => x / 2 ^ (y % 32).toNat),
      (.vsra m k d a b, false, .signed, fun x y _ => x / 2 ^ (y % 32).toNat),
      (.vshrr m k d a b, false, .signed, fun x y _ =>
        if y % 32 = 0 then x else (x + 2 ^ ((y % 32).toNat - 1)) / 2 ^ (y % 32).toNat),
      (.vmad m k d a b, true, .untyped, fun x y z => x * y + z), (.vsel m k d a b, true, .untyped, fun x y z =>
        if z ≠ 0 then x else y)] : List (Instr × Bool × IntRead × (Int → Int → Int → Int))),
    let f := VecForm.arith .int m k d [a, b] p.2.1
    let w := ModWord.get m
    VecReady s c f → Quiet c.w →
    WritesLanes s c (exec p.1 s) f d (fun l => fitted 32 w.sat
      (p.2.2.2 (exactly p.2.2.1 w.sat w.nega (c.sourceLane f 0 l)) (exactly p.2.2.1 w.sat w.negb (c.sourceLane f 1 l))
        (exactly .untyped w.sat false (c.sourceLane f 2 l))))

/-- R78, R119, R120: the forms with an 8-bit immediate, sign-extended to the lane, and the shifts by a 5-bit amount.
The model's choices in it: log 13, log 25. -/
def Obligations.VectorImmediates : Prop :=
  ∀ (s : State) (c : Ctx) (m : Option ModWord) (k : Bool) (d : VReg) (a : Src) (i : BitVec 8) (n : BitVec 5),
    let f := VecForm.arith .int m k d [a] false
    let w := ModWord.get m
    let y := exactly .untyped w.sat w.negb (i.signExtend 32)
    let t := n.toNat
    VecReady s c f → Quiet c.w →
    ∀ p ∈ ([(.vaddVi m k d a i, .untyped, fun x => x + y), (.vandVi m k d a i, .untyped, fun x => onBits (· &&& ·) x y),
      (.vorVi m k d a i, .untyped, fun x => onBits (· ||| ·) x y),
      (.vxorVi m k d a i, .untyped, fun x => onBits (· ^^^ ·) x y), (.vshlVi m k d a n, .untyped, fun x => x * 2 ^ t),
      (.vshrVi m k d a n, .unsigned, fun x => x / 2 ^ t), (.vsraVi m k d a n, .signed, fun x => x / 2 ^ t),
      (.vshrrVi m k d a n, .signed, fun x => if t = 0 then x else (x + 2 ^ (t - 1)) / 2 ^ t)] :
        List (Instr × IntRead × (Int → Int))),
    WritesLanes s c (exec p.1 s) f d (fun l =>
      fitted 32 w.sat (p.2.2 (exactly p.2.1 w.sat w.nega (c.sourceLane f 0 l))))

/-- R50, R122, R123: the packed 16-bit instructions: VADD2 and VSUB2 fit each signed element into 16 bits, VMAC2 adds
both exact products to its 32-bit third source with one fit. The model's choices in it: log 13. -/
def Obligations.VectorPacked : Prop :=
  ∀ (s : State) (c : Ctx) (m : Option ModWord) (k : Bool) (d : VReg) (a b : Src),
    let f := fun third => VecForm.arith .int m k d [a, b] third
    let w := ModWord.get m
    let elem := fun (neg : Bool) (p : Lane) (j : Nat) =>
      let v := (p.extractLsb' (16 * j) 16).toInt
      if neg then -v else v
    let pair := fun (g : Int → Int → Int) (l : Nat) =>
      let x := (c.sourceLane (f false) 0 l)
      let y := (c.sourceLane (f false) 1 l)
      let r := fun j => fitted 16 w.sat (g (elem w.nega x j) (elem w.negb y j))
      ((r 1).1 ++ (r 0).1, (r 0).2 ||| (r 1).2)
    (VecReady s c (f false) → Quiet c.w →
      WritesLanes s c (exec (.vadd2I16 m k d a b) s) (f false) d (pair (· + ·))
      ∧ WritesLanes s c (exec (.vsub2I16 m k d a b) s) (f false) d (pair (· - ·)))
    ∧ (VecReady s c (f true) → Quiet c.w →
      WritesLanes s c (exec (.vmac2I16 m k d a b) s) (f true) d (fun l =>
        let x := (c.sourceLane (f true) 0 l)
        let y := (c.sourceLane (f true) 1 l)
        fitted 32 w.sat (exactly .untyped w.sat false (c.sourceLane (f true) 2 l)
          + elem w.nega x 0 * elem w.negb y 0 + elem w.nega x 1 * elem w.negb y 1)))

/-- R121, R125, R267: the compares write one condition bit per active lane into a scalar pair; ABS and NEG apply to the
exact values; a float condition is that of the formats' numbers; a compare whose active lanes hold poison consumes it: no
register is written, unless the wave ends with the delivery, and INTEG is raised at the instruction. -/
def Obligations.VectorCompares : Prop :=
  (∀ (s : State) (c : Ctx) (m : Option ModWord) (q : BitVec 4) (a b : Src),
    let f := VecForm.compare m q a b
    let w := ModWord.get m
    let val := fun (r : IntRead) (abs neg : Bool) (p : Lane) =>
      let v := exactly r 0 false p
      let v := if abs then |v| else v
      if neg then -v else v
    VecReady s c f → Quiet c.w → poisonOf (c.sources f) &&& c.f.mask = 0 →
    (∀ p ∈ ([(0, fun x y => x = y), (1, fun x y => x ≠ y), (2, fun x y => x < y), (3, fun x y => x ≤ y),
        (4, fun x y => x > y), (5, fun x y => x ≥ y)] : List (BitVec 3 × (Int → Int → Prop))),
      ∀ cond : Int → Int → Bool, (∀ x y, cond x y = true ↔ p.2 x y) →
      WritesPair s c (exec (.vcmpI32 m p.1 q a b) s) f q (fun l => cond (val .signed w.absa w.nega (c.sourceLane f 0 l))
        (val .signed w.absb w.negb (c.sourceLane f 1 l)))
      ∧ WritesPair s c (exec (.vcmpZ32 m p.1 q a b) s) f q (fun l =>
        cond (val .unsigned w.absa w.nega (c.sourceLane f 0 l)) (val .unsigned w.absb w.negb (c.sourceLane f 1 l))))
    ∧ ∀ k : BitVec 3, WritesPair s c (exec (.vfcmp m k q a b) s) f q (fun l =>
        condFp k (modFp w.absa w.nega (Fp.decode .f32 (c.sourceLane f 0 l).toNat))
          (modFp w.absb w.negb (Fp.decode .f32 (c.sourceLane f 1 l).toNat))))
  ∧ (∀ (s : State) (c : Ctx) (m : Option ModWord) (k : BitVec 3) (q : BitVec 4) (a b : Src),
    let f := VecForm.compare m q a b
    VecReady s c f → poisonOf (c.sources f) &&& c.f.mask ≠ 0 →
    ∀ i ∈ [Instr.vcmpI32 m k q a b, .vcmpZ32 m k q a b, .vfcmp m k q a b],
      ∃ t w, exec i s = .next t ∧ TabOps.find? t.waves c.wid = some w ∧ w.cause.getLsbD 10 = true
        ∧ (w.life = .ended ∨ (w.sregs = c.w.sregs ∧ w.vregs = c.w.vregs)))


/-- R58 to R60, R124: the FP32 instructions: exact operands after ABS and NEG, the exact result, SCALE, one rounding,
SAT, and the flags of each. The model's choices in it: log 13. -/
def Obligations.VectorFloats : Prop :=
  ∀ (s : State) (c : Ctx) (m : Option ModWord) (k : Bool) (d : VReg) (a b : Src),
    ∀ p ∈ ([(.vfadd m k d a b, false, fun r x y _ => sumFp r [x, y]),
      (.vfsub m k d a b, false, fun r x y _ => sumFp r [x, y.flip]), (.vfmul m k d a b, false, fun _ x y _ => mulFp x y),
      (.vfma m k d a b, true, fun r x y z => ((sumFp r [(mulFp x y).1, z]).1, (mulFp x y).2 ||| (sumFp r [(mulFp x y).1, z]).2)),
      (.vfmin m k d a b, false, fun _ x y _ => (minFp x y, 0)),
      (.vfmax m k d a b, false, fun _ x y _ => (maxFp x y, 0))] : List (Instr × Bool × (Rnd → Fp → Fp → Fp → Fp × BitVec 6))),
    let f := VecForm.arith .float m k d [a, b] p.2.1
    let w := ModWord.get m
    let num := fun i l => Fp.decode .f32 (c.sourceLane f i l).toNat
    VecReady s c f → Quiet c.w →
    WritesLanes s c (exec p.1 s) f d (fun l =>
      let x := p.2.2 (Rnd.of w.rnd) (modFp w.absa w.nega (num 0 l)) (modFp w.absb w.negb (num 1 l)) (num 2 l)
      let y := finishFp .f32 (Rnd.of w.rnd) w.scale.toInt w.sat x.1
      (BitVec.ofNat 32 y.1, x.2 ||| y.2))

/-- R50, R127, R128: the packed BF16 and FP16 instructions round each of two elements; VDOT2 adds both exact products
to its FP32 third source with one rounding. The model's choices in it: log 13, log 24. -/
def Obligations.VectorHalves : Prop :=
  ∀ (s : State) (c : Ctx) (m : Option ModWord) (k : Bool) (d : VReg) (a b : Src),
    let f := fun third => VecForm.arith .float m k d [a, b] third
    let w := ModWord.get m
    let r := Rnd.of w.rnd
    let elem := fun (fmt : Fmt) third i l j => Fp.decode fmt (((c.sourceLane (f third) i l).extractLsb' (16 * j) 16).toNat)
    let x := fun fmt third l j => modFp w.absa w.nega (elem fmt third 0 l j)
    let y := fun fmt third l j => modFp w.absb w.negb (elem fmt third 1 l j)
    (∀ p ∈ ([(.vhadd2Bf16 m k d a b, .bf16, false, fun x y _ => sumFp r [x, y]),
        (.vhadd2F16 m k d a b, .f16, false, fun x y _ => sumFp r [x, y]),
        (.vhmul2Bf16 m k d a b, .bf16, false, fun x y _ => mulFp x y),
        (.vhmul2F16 m k d a b, .f16, false, fun x y _ => mulFp x y),
        (.vhfma2Bf16 m k d a b, .bf16, true, fun x y z => fmaFp r x y z),
        (.vhfma2F16 m k d a b, .f16, true, fun x y z => fmaFp r x y z)] :
          List (Instr × Fmt × Bool × (Fp → Fp → Fp → Fp × BitVec 6))),
      VecReady s c (f p.2.2.1) → Quiet c.w →
      WritesLanes s c (exec p.1 s) (f p.2.2.1) d (fun l =>
        let z := fun j =>
          let e := p.2.2.2 (x p.2.1 p.2.2.1 l j) (y p.2.1 p.2.2.1 l j) (elem p.2.1 p.2.2.1 2 l j)
          let q := finishFp p.2.1 r w.scale.toInt w.sat e.1
          (q.1, e.2 ||| q.2)
        (BitVec.ofNat 32 ((z 0).1 + 65536 * (z 1).1), (z 0).2 ||| (z 1).2)))
    ∧ (∀ p ∈ ([(.vdot2Bf16 m k d a b, .bf16), (.vdot2F16 m k d a b, .f16)] : List (Instr × Fmt)),
      VecReady s c (f true) → Quiet c.w →
      WritesLanes s c (exec p.1 s) (f true) d (fun l =>
        let t := fun j => mulFp (x p.2 true l j) (y p.2 true l j)
        let e := sumFp r [Fp.decode .f32 (c.sourceLane (f true) 2 l).toNat, (t 0).1, (t 1).1]
        let q := finishFp .f32 r w.scale.toInt w.sat e.1
        (BitVec.ofNat 32 q.1, (t 0).2 ||| (t 1).2 ||| e.2 ||| q.2)))

/-- R69, R70, R126, R134: the VFUN instructions. VSQRT, VFRACT and VFLOOR round an exact value under the mode; the
others take the value of their function as a pattern, then SCALE and SAT with one rounding to nearest. The model's
choices in it: log 6, log 13. -/
def Obligations.VectorFunctions : Prop :=
  ∀ (s : State) (c : Ctx) (m : Option ModWord) (k : Bool) (d : VReg) (a : Src),
    let f := VecForm.arith .float m k d [a] false
    let w := ModWord.get m
    let pattern := fun l =>
      let p := c.sourceLane f 0 l
      let p := if w.absa then p &&& 0x7FFFFFFF else p
      if w.nega then p ^^^ 0x80000000 else p
    VecReady s c f → Quiet c.w →
    (∀ p ∈ ([(.vsqrt m k d a, sqrtFp), (.vfract m k d a, fractFp), (.vfloor m k d a, fun x => (floorFp x, 0))] :
        List (Instr × (Fp → Fp × BitVec 6))),
      WritesLanes s c (exec p.1 s) f d (fun l =>
        let x := p.2 (modFp w.absa w.nega (Fp.decode .f32 (c.sourceLane f 0 l).toNat))
        let y := finishFp .f32 (Rnd.of w.rnd) w.scale.toInt w.sat x.1
        (BitVec.ofNat 32 y.1, x.2 ||| y.2)))
    ∧ (∀ p ∈ ([(.vrcp m k d a, rcpFp), (.vrsq m k d a, rsqFp), (.vrrt m k d a, rrtFp), (.vsint m k d a, sinFp),
        (.vcost m k d a, cosFp), (.vexp2 m k d a, exp2Fp), (.vlog2 m k d a, log2Fp)] :
          List (Instr × (Lane → Nat × BitVec 6))),
      WritesLanes s c (exec p.1 s) f d (fun l =>
        let x := p.2 (pattern l)
        let y := finishFp .f32 .rne w.scale.toInt w.sat (Fp.decode .f32 x.1)
        (BitVec.ofNat 32 y.1, x.2 ||| y.2)))

/-- R130: VCVT converts the elements that a lane of both formats holds, element by element; a 64-bit destination is a
pair and ends the chain (R40). The model's choices in it: log 13, and log 73 for a pair under a partial MASK. -/
def Obligations.VectorConversions : Prop :=
  ∀ (s : State) (c : Ctx) (m : Option ModWord) (k : Bool) (d : VReg) (a : Src) (e q : BitVec 4),
    let f := VecForm.convert m k d a e q
    let w := c.entered f
    let wide := w.source64 a
    let xs := if 12 ≤ q.toNat then [wide.1, wide.2] else [w.source (c.chain f) a]
    let input := fun l => if 12 ≤ q.toNat then (wide.2.lane l ++ wide.1.lane l).toNat else ((w.source (c.chain f) a).lane l).toNat
    let out := fun l => convLane (ModWord.get m) (Num.of e) (Num.of q) (input l)
    let flags := (List.range c.w.width).foldl (fun fl l => fl ||| if c.f.mask.getLsbD l then (out l).2 else 0) 0
    VecReady s c f → Quiet c.w →
    (e.toNat < 12 → LeavesWave s c (exec (.vcvt m k d a e q) s)
      (c.vectorAfter f (vregsWith w c.f.mask k d (fun l => BitVec.ofNat 32 (out l).1) (c.lowest f xs) (poisonOf xs))
        (latchWith c.w c.f.mask (fun l => BitVec.ofNat 32 (out l).1) (c.lowest f xs) (poisonOf xs)) flags) c.following)
    ∧ (12 ≤ e.toNat → WritesWide s c (exec (.vcvt m k d a e q) s) f d (fun l => BitVec.ofNat 64 (out l).1) (poisonOf xs)
      (c.lowest f xs) flags)

/-- R68, R116, R136 to R140: the lane movements. A slide takes unit i − n (up) or i + n (down) of the source, or a
unit of the fill where that lies outside; VSWAPP exchanges neighbours; VPERM takes the lane that b names and VBCAST
the one that lane 0 of b names, 0 where there is none; poison moves with its lane. VRED gives every active lane the
value of one tree over all lanes, inactive ones at the operation's identity, the lower lane on the left at every node;
poison of any active lane reaches every active lane. The model's choices in it: log 13. -/
def Obligations.LaneMovement : Prop :=
  (∀ (s : State) (c : Ctx) (m : Option ModWord) (k : Bool) (d : VReg) (a b : Src) (n : BitVec 7),
    let W := c.w.width
    (∀ u : BitVec 1, ∀ up : Bool,
      let f := VecForm.arith .slide m k d [a] false
      let x := (c.entered f).source (c.chain f) a
      let fill := match m with
        | some m => (c.entered f).source (c.chain f) m.srcc
        | none => ⟨[], (c.entered f).eg, 0⟩
      let size := if u = 1 then 2 * W else W
      let n' := min n.toNat size
      let from' := fun i => if up then (if n' ≤ i then (x, i - n') else (fill, size - n' + i))
        else (if i + n' < size then (x, i + n') else (fill, i + n' - size))
      let lane := fun l => if u = 1 then
          let half := fun i => ((from' i).1.lane ((from' i).2 / 2)).extractLsb' (16 * ((from' i).2 % 2)) 16
          half (2 * l + 1) ++ half (2 * l)
        else (from' l).1.lane (from' l).2
      let bad := fun l => if u = 1 then
          (from' (2 * l)).1.poison.getLsbD ((from' (2 * l)).2 / 2)
            || (from' (2 * l + 1)).1.poison.getLsbD ((from' (2 * l + 1)).2 / 2)
        else (from' l).1.poison.getLsbD (from' l).2
      VecReady s c f → Quiet c.w →
      WritesMoved s c (exec (if up then .vslideUp m k d a u n else .vslideDn m k d a u n) s) f d lane bad
        (c.lowest f (if m.isSome then [x, fill] else [x])))
    ∧ (let f := VecForm.bare k [a] (.v32 d)
       let x := (c.entered f).source (c.chain f) a
       VecReady s c f → Quiet c.w →
       WritesMoved s c (exec (.vswapp k d a) s) f d (fun l => x.lane (if l % 2 = 0 then l + 1 else l - 1))
         (fun l => x.poison.getLsbD (if l % 2 = 0 then l + 1 else l - 1)) (c.lowest f [x]))
    ∧ (let f := VecForm.bare k [a, b] (.v32 d)
       let x := (c.entered f).source (c.chain f) a
       let y := (c.entered f).source (c.chain f) b
       VecReady s c f → Quiet c.w →
       WritesMoved s c (exec (.vperm k d a b) s) f d (fun l => if (y.lane l).toNat < W then x.lane (y.lane l).toNat else 0)
         (fun l => y.poison.getLsbD l || (decide ((y.lane l).toNat < W) && x.poison.getLsbD (y.lane l).toNat))
         (c.lowest f [x, y])
       ∧ WritesMoved s c (exec (.vbcast k d a b) s) f d
         (fun _ => if (y.lane 0).toNat < W then x.lane (y.lane 0).toNat else 0)
         (fun _ => y.poison.getLsbD 0 || (decide ((y.lane 0).toNat < W) && x.poison.getLsbD (y.lane 0).toNat))
         (c.lowest f [x, y])))
  ∧ (∀ (s : State) (c : Ctx) (m : Option ModWord) (k : Bool) (d : VReg) (a : Src) (o fm : BitVec 4),
    let f := VecForm.arith .red m k d [a] false
    let x := (c.entered f).source (c.chain f) a
    let xs := (List.range c.w.width).map (fun l =>
      if c.f.mask.getLsbD l then (x.lane l).toNat else redIdentity o.toNat fm.toNat)
    let r := redTree o.toNat fm.toNat (Rnd.of (ModWord.get m).rnd) 7 xs
    let g := c.lowest f [x]
    let p := if x.poison &&& c.f.mask = 0 then 0 else c.f.mask
    VecReady s c f → Quiet c.w →
    LeavesWave s c (exec (.vred m k d a o fm) s)
      (c.vectorAfter f (vregsWith (c.entered f) c.f.mask k d (fun _ => BitVec.ofNat 32 r.1) g p)
        (latchWith c.w c.f.mask (fun _ => BitVec.ofNat 32 r.1) g p) (if c.f.mask = 0 then 0 else r.2)) c.following)


/-- R276 to R279: GRTAG writes tag, poison and the test of g; GRDIL sets the tag to the smaller of g and EG and, where
the source's is below it, sets DIL and advances DILCNT by one up to 65,535; GRCHK passes a clean value to B0 and consumes
a poisoned one, raising INTEG; GRLIM limits EG from the end of its chain on. Each goes on with the next instruction. R270,
R271: of a repeated instruction whose runs faults of the hardware strike, here SADD, the value that two runs share is
written, DISAGREE counts a difference once, and INTEG is raised where no two agree. The model's choices in it: log 13. -/
def Obligations.GradeInstructions : Prop :=
  (∀ (s : State) (c : Ctx) (k : Bool) (d : VReg) (a : Src) (g : BitVec 2),
    (let f := VecForm.bare k [a] (.v32 d)
     let w := c.entered f
     let x := w.source (c.chain f) a
     let t := Grade.min g w.eg
     VecReady s c f → Quiet c.w →
     WritesMoved s c (exec (.grtag k d a g) s) f d
       (fun l => BitVec.ofNat 32 (x.tag.toNat + (if x.poison.getLsbD l then 4 else 0)
         + (if x.tag.toNat < g.toNat ∨ x.poison.getLsbD l = true then 8 else 0))) (fun _ => false) w.eg
     ∧ (t.toNat ≤ x.tag.toNat → WritesMoved s c (exec (.grdil k d a g) s) f d x.lane (fun l => x.poison.getLsbD l) t)
     ∧ (x.tag.toNat < t.toNat → ∃ gs : Word, gs.getLsbD 2 = true
         ∧ (gs.extractLsb' 16 16).toNat = min 65535 ((c.w.gst.extractLsb' 16 16).toNat + 1)
         ∧ gs &&& ~~~0xFFFF0004#64 = c.w.gst &&& ~~~0xFFFF0004#64
         ∧ WritesMoved s { c with w := { c.w with gst := gs } } (exec (.grdil k d a g) s) f d x.lane
             (fun l => x.poison.getLsbD l) t))
    ∧ (let f := VecForm.bare false [a] .none
       let x := (c.entered f).source (c.chain f) a
       VecReady s c f → Quiet c.w → x.poison &&& c.f.mask = 0 →
       LeavesWave s c (exec (.grchk a) s)
         (c.vectorAfter f (c.entered f).vregs (latchWith c.w c.f.mask x.lane x.tag 0) 0) c.following)
    ∧ (let f := VecForm.bare false [a] .none
       VecReady s c f → ((c.entered f).source (c.chain f) a).poison &&& c.f.mask ≠ 0 →
       ∃ t v, exec (.grchk a) s = .next t ∧ TabOps.find? t.waves c.wid = some v ∧ v.cause.getLsbD 10 = true
         ∧ (v.life = .ended ∨ (v.sregs = c.w.sregs ∧ v.vregs = c.w.vregs)))
    ∧ (let f := VecForm.bare false [] .none
       VecReady s c f → Quiet c.w →
       LeavesWave s c (exec (.grlim g) s)
         { c.w.closed with
           egNext := some (Grade.min g c.w.launchG)
           latches := [latchWith c.w c.f.mask (fun _ => 0) c.w.egNow 0]
           chainFrag := c.fid } c.following))
  ∧ ∀ (s : State) (c : Ctx) (d a b : SReg), s.ctx? = some c → c.w.budget [d.toNat, a.toNat, b.toNat] [] = true →
    c.w.pendingAny [d.toNat, a.toNat, b.toNat] = false → c.w.doneRegs = [] → c.w.ginj.getLsbD 15 = false →
    2 ≤ c.w.egNow.toNat →
    let run := fun (i : Nat) => (c.w.faults.filter (fun y => y.run == i)).foldl
      (fun x y => if y.bit < 64 then x ^^^ BitVec.ofNat 64 (2 ^ y.bit) else x) (c.w.s a + c.w.s b)
    let three := c.w.egNow = 3 ∨ run 0 ≠ run 1
    let differs := run 0 ≠ run 1 ∨ (three ∧ (run 0 ≠ run 2 ∨ run 1 ≠ run 2))
    let old := (c.w.gst.extractLsb' 32 16).toNat
    (∀ x, (run 0 = run 1 ∧ x = run 0) ∨ (three ∧ ((run 0 = run 2 ∧ x = run 0) ∨ (run 1 = run 2 ∧ x = run 1))) →
      NextWith (exec (.sadd d a b) s) fun t => WaveIs t c.wid fun w => w.faults = []
        ∧ w.frag? c.fid = some (c.f.moved c.following) ∧ w.vregs = c.w.vregs
        ∧ w.sregs = sregsWith c.w d x (Grade.min (Grade.min c.w.egNow (c.w.stag a)) (c.w.stag b))
        ∧ (differs → (w.gst.extractLsb' 32 16).toNat = min 65535 (old + 1))
        ∧ (¬ differs → (w.gst.extractLsb' 32 16).toNat = old))
    ∧ (run 0 ≠ run 1 → run 0 ≠ run 2 → run 1 ≠ run 2 →
      NextWith (exec (.sadd d a b) s) fun t => WaveIs t c.wid fun w => w.cause.getLsbD 10 = true
        ∧ (w.life = .ended ∨ (w.sregs = c.w.sregs ∧ w.vregs = c.w.vregs)))

/-! ### Memory instructions -/

/-- R113, R142, R210, R264: SLD loads 1, 2, 4 or 8 bytes at a + imm13, zero-extended, tagged with the smallest page grade
read, where the address translates, no byte is bad and none waits for the CXL tier; no memory changes but by write-back
and eviction. That it is the smallest one of two pages is the model's choice (log 76). -/
def Obligations.ScalarLoads : Prop :=
  ∀ (s : State) (c : Ctx) (d a : SReg) (i : BitVec 13), Ready s c [d.toNat, a.toNat] [] →
    ∀ p ∈ ([(.sldB d a i, 1), (.sldH d a i, 2), (.sldW d a i, 4), (.sldD d a i, 8)] : List (Instr × Nat)),
    let x := s.locate (c.route s).at' c.g.vd .load 0 (c.w.s a + i.signExtend 64) p.2
    x.causes = 0 → Served s c false x.parts →
    KeepsMemory s c (exec p.1 s) { c.w.closed with
      sregs := sregsWith c.w d (BitVec.ofNat 64 (leValue (seenBytes s c false x.parts))) (lowestPage x.parts) }

/-- R113, R265: SST stores the low 1, 2, 4 or 8 bytes of its register at a + imm13, where the address translates and no
page is of a higher grade than the register's tag; only the bytes stored to change, and no register does. -/
def Obligations.ScalarStores : Prop :=
  ∀ (s : State) (c : Ctx) (d a : SReg) (i : BitVec 13), Ready s c [d.toNat, a.toNat] [] →
    ∀ p ∈ ([(.sstB d a i, 1), (.sstH d a i, 2), (.sstW d a i, 4), (.sstD d a i, 8)] : List (Instr × Nat)),
    let x := s.locate (c.route s).at' c.g.vd .store 0 (c.w.s a + i.signExtend 64) p.2
    x.causes = 0 → (∀ q ∈ x.parts, q.leaf.grade.toNat ≤ (c.w.stag d).toNat) →
    StoresMemory s c (exec p.1 s) c.w.closed (spreadBytes x.parts (leBytes (c.w.s d).toNat p.2))

/-- R48, R113, R203, R343: a scalar load or store whose address does not translate sets the cause in CAUSE; the fragment
waits at the instruction for the resident kernel with the address as information; no register and no home byte
changes. -/
def Obligations.ScalarAccessFaults : Prop :=
  ∀ (s : State) (c : Ctx) (d a : SReg) (i : BitVec 13), Ready s c [d.toNat, a.toNat] [] →
    ∀ p ∈ ([(.sldB d a i, .load, 1), (.sldH d a i, .load, 2), (.sldW d a i, .load, 4), (.sldD d a i, .load, 8),
      (.sstB d a i, .store, 1), (.sstH d a i, .store, 2), (.sstW d a i, .store, 4), (.sstD d a i, .store, 8)] :
        List (Instr × Access × Nat)),
    let va := c.w.s a + i.signExtend 64
    ∀ e, s.translate (c.route s).at' c.g.vd va p.2.1 = .error e → e ≠ .cxlDown →
    NextWith (exec p.1 s) fun t => ∃ w f causes, TabOps.find? t.waves c.wid = some w ∧ w.frag? c.fid = some f
      ∧ w.cause = c.w.cause ||| causes ∧ causes &&& Cause.ofMem e = Cause.ofMem e ∧ f.park = .pageFault causes va
      ∧ f.pc = c.f.pc ∧ w.sregs = c.w.sregs ∧ w.vregs = c.w.vregs ∧ MemoryFrame s t (fun _ => False) ∧ t.cores = s.cores

/-- R141, R142, R144, R210, R264: VLDF loads the element at each active lane's flat address, extended as its TYPE
says, where every active lane's address is clean and translates and no line is bad; with no active lane it goes on and
accesses nothing. The model's choices in it: log 13, and log 73 for a pair under a partial MASK. -/
def Obligations.FlatLoads : Prop :=
  ∀ (s : State) (c : Ctx) (mw : Option MemWord) (d : VReg) (a : Src),
    let m := MemWord.get mw
    let n := typeSize m.ty
    let wide := memWide m.ty
    let base := baseRegs a true
    let va := fun l => if a.toNat < 128 then
        ((c.w.v (a.toNat + 1)).lane l ++ (c.w.v a.toNat).lane l) + m.disp.signExtend 64
      else c.w.s (BitVec.ofNat 6 (a.toNat - 128)) + m.disp.signExtend 64 + BitVec.ofNat 64 (l * n)
    let at' := fun l => s.locate (c.route s).at' c.g.vd .load l (va l) n
    let far := decide ((c.route s).share < m.scope.toNat)
    let ps := c.active.flatMap (fun l => (at' l).parts)
    Ready s c base.1 (base.2 ++ dataRegs d wide) →
    (c.f.mask = 0 → LeavesWave s c (exec (.vldf mw d a) s) c.w.closed c.following)
    ∧ (c.active ≠ [] → c.w.basePoison a true &&& c.f.mask = 0 → (∀ l ∈ c.active, (at' l).causes = 0) →
        Served s c far ps → bit c.w.ginj 40 = false →
        KeepsMemory s c (exec (.vldf mw d a) s) { c.w.closed with
          vregs := vregsLoaded c.w c.f.mask d wide
            (fun l => extend m.ty (leValue (seenBytes s c far (at' l).parts))) (lowestPage ps) 0 })

/-- R141, R143, R144, R265: VSTF stores the element of each active lane at its flat address, a later lane over an earlier
one, where no active lane's address or datum is poisoned, every address translates and no page's grade is above the
data's tag. -/
def Obligations.FlatStores : Prop :=
  ∀ (s : State) (c : Ctx) (mw : Option MemWord) (d : VReg) (a : Src),
    let m := MemWord.get mw
    let n := typeSize m.ty
    let wide := memWide m.ty
    let base := baseRegs a true
    let va := fun l => if a.toNat < 128 then
        ((c.w.v (a.toNat + 1)).lane l ++ (c.w.v a.toNat).lane l) + m.disp.signExtend 64
      else c.w.s (BitVec.ofNat 6 (a.toNat - 128)) + m.disp.signExtend 64 + BitVec.ofNat 64 (l * n)
    let at' := fun l => s.locate (c.route s).at' c.g.vd .store l (va l) n
    let data := fun l => leBytes ((c.w.v (d.toNat + 1)).lane l ++ (c.w.v d.toNat).lane l).toNat n
    let rs := dataRegs d wide
    Ready s c base.1 (base.2 ++ rs) →
    (c.f.mask = 0 → LeavesWave s c (exec (.vstf mw d a) s) c.w.closed c.following)
    ∧ (c.f.mask ≠ 0 → c.w.basePoison a true &&& c.f.mask = 0 → (∀ r ∈ rs, (c.w.v r).poison &&& c.f.mask = 0) →
        (∀ l ∈ c.active, (at' l).causes = 0
          ∧ ∀ q ∈ (at' l).parts, ∀ r ∈ rs, q.leaf.grade.toNat ≤ (c.w.v r).tag.toNat) →
        StoresMemory s c (exec (.vstf mw d a) s) c.w.closed
          (c.active.flatMap (fun l => spreadBytes (at' l).parts (data l))))

/-- R207 to R209, R215, R216: VLD loads each active lane's element through a buffer record that may be used, converted
as the record says, OOBZ lanes reading 0; VST stores the converted bytes of each lane, which read back, and nothing
where OOBZ drops a lane. The record is kept in the core's record cache, but by a replay (R241). Both wait for nothing where
no word comes from the CXL tier (R351). The model's choices in it: log 13, log 78 for conversions that VCVT does not name,
and log 73 for a pair under a partial MASK. -/
def Obligations.RecordAccesses : Prop :=
  ∀ (s : State) (c : Ctx) (mw : Option MemWord) (d : VReg) (a : Src) (n : BitVec 8) (r : BufRec.Words),
    let m := MemWord.get mw
    let base := baseRegs a false
    let s' := s.recKeep (c.route s) c.g n.toNat r
    let c' := c.ended
    let load := c'.recAccs s' r .load m a
    let store := c'.recAccs s' r .store m a
    let wide := BufRec.pairData r m.ty
    let rs := dataRegs d wide
    let far := decide ((c.route s).share < m.scope.toNat)
    let value := fun (x : LaneAcc) => c'.recValue s' r m a (fun x => seenBytes s' c far x.parts)
      (fun p => s'.viewBytes (c.route s) p.pa false p.n) x
    let kept := fun (t : State) => c.g.shadow = none →
      TabOps.find? (t.core (c.route s).own).recCache (recKey c.g.vd (c.g.packet.recAddr n.toNat)) = some r
    Ready s c base.1 (base.2 ++ dataRegs d (memWide m.ty)) → s.record (c.route s) c.g n.toNat = .ok r →
    Waited s c (c.route s).past false (s.recParts (c.route s) c.g n.toNat) →
    c.w.budget [] rs = true → c.active ≠ [] → c.w.basePoison a false &&& c.f.mask = 0 →
    ((m.ty ≠ 0 ∨ BufRec.convOk r false d = true) → (∀ x ∈ load, x.causes = 0) → Served s' c far (partsOf load) →
      Served s' c false (auxOf load) → bit c.w.ginj 40 = false →
      KeepsMemory s c (exec (.vld mw d a n) s) { c.w.closed with
        aflg := c.w.aflg ||| (load.foldl (fun f x => f ||| (value x).2) 0).zeroExtend 14
        vregs := vregsLoaded c.w c.f.mask d wide (fun l => match load.find? (fun x => x.lane == l) with
            | some x => (value x).1
            | none => (0, 0)) (loadTag c.w.egNow load) 0 }
      ∧ NextWith (exec (.vld mw d a n) s) kept)
    ∧ ((m.ty ≠ 0 ∨ BufRec.convOk r true d = true) → (∀ x ∈ store, x.causes = 0) →
      (∀ r ∈ dataRegs d (memWide m.ty) ++ rs, (c.w.v r).poison &&& c.f.mask = 0) →
      (∀ q ∈ partsOf store, ∀ r ∈ rs, q.leaf.grade.toNat ≤ (c.w.v r).tag.toNat) →
      Waited s' c (c.route s) false (auxOf store) →
      StoresMemory s c (exec (.vst mw d a n) s)
          { c.w.closed with aflg := c.w.aflg
              ||| ((store.filter (fun x => !x.drop)).foldl (fun f x => f ||| (c'.recData r m d x.lane).2) 0).zeroExtend 14 }
          (store.flatMap (fun x => spreadBytes x.parts (c'.recData r m d x.lane).1))
        ∧ NextWith (exec (.vst mw d a n) s) kept)

/-- R193, R218: VLDS reads and VSTS writes the scratchpad bytes of each active lane, of the team's own scratchpad or
through the window of its neighbourhood, where every place exists and nothing is poisoned; a later lane's bytes stand,
and every other scratchpad byte is as it was. The model's choices in it: log 13, and log 73 for a pair under a partial
MASK. -/
def Obligations.ScratchpadAccesses : Prop :=
  ∀ (s : State) (c : Ctx) (mw : Option MemWord) (d : VReg) (a : Src) (win : BitVec 1) (ps : Nat → List (Nat × Nat)),
    let m := MemWord.get mw
    let n := typeSize m.ty
    let wide := memWide m.ty
    let rs := dataRegs d wide
    let base := baseRegs a false
    let x := fun l => if a.toNat < 128 then ((c.w.v a.toNat).lane l).zeroExtend 64 + m.disp.signExtend 64
      else c.w.s (BitVec.ofNat 6 (a.toNat - 128)) + m.disp.signExtend 64 + BitVec.ofNat 64 (l * n)
    let data := fun l => leBytes ((c.w.v (d.toNat + 1)).lane l ++ (c.w.v d.toNat).lane l).toNat n
    let places := c.active.flatMap ps
    let last := fun q => c.active.foldl (fun o l => match (ps l).findIdx? (· == q) with
      | some k => some ((data l).getD k 0)
      | none => o) (none : Option Byte)
    Ready s c base.1 (base.2 ++ rs) → c.active ≠ [] → c.w.basePoison a false &&& c.f.mask = 0 →
    (∀ l ∈ c.active, s.spBytes c.w.team c.t c.g (win == 1) (x l) n = .ok (ps l)) →
    ((∀ q ∈ places, s.spPoison q = false) →
      KeepsMemory s c (exec (.vlds mw d a win) s) { c.w.closed with
        vregs := vregsLoaded c.w c.f.mask d wide (fun l => extend m.ty (leValue ((ps l).map s.spRead)))
          (places.foldl (fun g q => Grade.min g (s.spTag q)) 3) 0 })
    ∧ ((∀ r ∈ rs, (c.w.v r).poison &&& c.f.mask = 0) →
      NextWith (exec (.vsts mw d a win) s) fun t => TabOps.find? t.waves c.wid = some (c.w.closed.moved c c.following)
        ∧ MemoryFrame s t (fun _ => False)
        ∧ ∀ q, (∃ u, TabOps.find? s.teams q.1 = some u) → t.spRead q = (last q).getD (s.spRead q))

/-- R210, R212, R221: SATOM, plain, .acq, .rel and .acqrel: the old value goes to d with the page's grade, the new one to
the L1 for a scope no wider than the sharing scope, else to the home; where the address is aligned and translates, the
element is not uncorrectable and the page's grade is not above the operand's tag. -/
def Obligations.ScalarAtomics : Prop :=
  ∀ (s : State) (c : Ctx) (d a b : SReg) (o : BitVec 4) (x : BitVec 3) (p : Part),
    ∀ i ∈ ([(.satom d a b o x, false), (.satomAcq d a b o x, false), (.satomRel d a b o x, true),
      (.satomAcqrel d a b o x, true)] : List (Instr × Bool)),
    let r := c.route s
    let va := c.w.s a
    let y := c.w.s b
    let s0 := s.keepParts r [p]
    let s' := if i.2 then s0.release r x.toNat .none else s0
    let near := x.toNat ≤ r.share
    let s2 := (s'.atomicOpen r x.toNat [p]).atomicReads r x.toNat [p]
    let old := leValue (if near then s2.viewBytes r p.pa false 8 else s2.homeSeen r.shadow p.pa 8)
    let w := BitVec.ofNat 64 old
    let e := c.w.s d
    let new : Word := ([w + y, if y.toInt < w.toInt then y else w, if w.toInt < y.toInt then y else w,
      if y.toNat < w.toNat then y else w, if w.toNat < y.toNat then y else w, w &&& y, w ||| y, w ^^^ y, y,
      if w = e then y else w] : List Word).getD o.toNat 0
    Ready s c [d.toNat, a.toNat, b.toNat] [] → o.toNat ≤ 9 → va.toNat % 8 = 0 →
    (s.locate (c.route s).at' c.g.vd .atomic 0 va 8).parts = [p] →
    (s.atomicPlace r x.toNat p.pa 8).atomicBad r x.toNat p.pa 8 p.leaf = none →
    p.leaf.grade.toNat ≤ (c.w.stag b).toNat → (o = 9 → p.leaf.grade.toNat ≤ (c.w.stag d).toNat) →
    NextWith (exec i.1 s) fun t =>
      TabOps.find? t.waves c.wid
        = some ({ c.w.closed with sregs := sregsWith c.w d w p.leaf.grade }.moved c c.following)
      ∧ (near → t.viewBytes r p.pa false 8 = leBytes new.toNat 8)
      ∧ (¬ near → s.lineDown (p.pa / 128) = false → (∀ a, p.pa ≤ a → a < p.pa + 8 → ¬ CodeAt s t a) →
          t.homeSeen r.shadow p.pa 8 = leBytes new.toNat 8)
      ∧ MemoryFrame s t (fun pa => p.pa ≤ pa ∧ pa < p.pa + 8)

/-- R210, R219, R220: VATOM performs one read-modify-write for each active lane that its record lets through, in rising
order, and writes the old values, where every element is aligned, translates and is not uncorrectable, and no page's
grade is above the operands'. The new value of the last lane of an element stands in the L1 for a scope no wider than the
sharing scope, else at the home. The model's choices in it: log 13, log 35, and log 73 for a pair under a partial
MASK. -/
def Obligations.VectorAtomics : Prop :=
  ∀ (s : State) (c : Ctx) (mw : Option MemWord) (d : VReg) (a : Src) (rn : BitVec 8) (q : BufRec.Words),
    let m := MemWord.get mw
    let wide := memWide m.ty
    let n := if wide then 8 else 4
    let rs := atomRegs d wide (m.atop == 7)
    let base := baseRegs a false
    let r := c.route s
    let c' := c.ended
    let s1 := s.recKeep r c.g rn.toNat q
    let as := c'.atomAccs s1 q m a n
    let s2 := (s1.keepParts r (allParts as)).loadParts r 0 0 (auxOf as)
    let s3 := if m.ord == 2 || m.ord == 3 then s2.release r m.scope.toNat .none else s2
    let s4 := s3.atomicOpen r m.scope.toNat (partsOf as)
    let found := fun (p : Part) => s4.atomicBad r m.scope.toNat p.pa n p.leaf
    let y := c'.atomLanes m d n found as (s4.atomicReads r m.scope.toNat (partsOf as))
    let oldOf := fun (l : Nat) => ((y.2.1.find? (fun x => x.1 == l)).map Prod.snd).getD 0
    let operand := fun (k l : Nat) =>
      if wide then ((c.w.v (k + 1)).lane l ++ (c.w.v k).lane l).toNat else ((c.w.v k).lane l).toNat
    let newOf := fun (l : Nat) => (atopOf m).apply (8 * n) (oldOf l) (operand d.toNat l)
      (operand (d.toNat + if wide then 2 else 1) l)
    let near := m.scope.toNat ≤ r.share
    Ready s c base.1 (base.2 ++ rs) → s.record r c.g rn.toNat = .ok q → c.active ≠ [] →
    Waited s c r.past false (s.recParts r c.g rn.toNat) → Waited s1 c r false (auxOf as) →
    (c.w.basePoison a false ||| poisonOf (rs.map c.w.v)) &&& c.f.mask = 0 → (∀ x ∈ as, x.causes = 0) →
    (∀ p ∈ partsOf as, ∀ r ∈ rs, p.leaf.grade.toNat ≤ (c.w.v r).tag.toNat) → y.2.2.2 = [] → y.2.2.1 = 0 →
    NextWith (exec (.vatom mw d a rn) s) fun t => ∃ w, TabOps.find? t.waves c.wid = some w
      ∧ w.frag? c.fid = some (c.f.moved c.following) ∧ w.sregs = c.w.sregs
      ∧ w.vregs = vregsLoaded c.w c.f.mask d wide
          (fun l => (BitVec.ofNat 32 (oldOf l), BitVec.ofNat 32 (oldOf l / 2 ^ 32))) (loadTag c.w.egNow as) 0
      ∧ MemoryFrame s t (fun pa => ∃ p ∈ partsOf as, p.pa ≤ pa ∧ pa < p.pa + p.n)
      ∧ (∀ pre x post p, as = pre ++ x :: post → x.parts = [p] → (∀ z ∈ post, ∀ o ∈ z.parts, o.pa ≠ p.pa) →
          (∀ line, s.lineDown line = false) → (∀ a, p.pa ≤ a → a < p.pa + n → ¬ CodeAt s t a ∧ OnlyHere s (r.slice a) a) →
          if near then t.viewBytes r p.pa false n = leBytes (newOf x.lane) n
          else t.homeSeen r.shadow p.pa n = leBytes (newOf x.lane) n)

/-- R189 to R191, R222, R223, R226: the fences change no register. A release at a scope wider than the sharing scope
leaves at home every byte that stood dirty in the wave's L1 at a scope it covers; an acquire leaves no clean byte in it;
FENCE does both, the release first; RFENCE empties the core's record cache. -/
def Obligations.Fences : Prop :=
  ∀ (s : State) (c : Ctx) (x : BitVec 3), s.ctx? = some c →
    let key := (c.route s).own
    let clean := fun (t : State) => (c.route s).fused = [] → (c.route s).share < x.toNat → ∀ line l,
      t.l1 key line = some l → l.valid = 0
    let home := fun (t : State) => (c.route s).fused = [] → (c.route s).share < x.toNat →
      (∀ line, s.lineDown line = false) → ((s.core key).l1.map Prod.fst).Nodup → ∀ line l i, s.l1 key line = some l →
      l.sc.toNat ≤ min x.toNat 6 → i < 128 → l.dirty.getLsbD i = true → ¬ CodeAt s t (line * 128 + i) →
      t.homeByte (line * 128 + i) = l.data.getD i 0
    KeepsMemory s c (exec (.fence x) s) c.w.closed ∧ NextWith (exec (.fence x) s) home
      ∧ NextWith (exec (.fence x) s) clean
    ∧ KeepsMemory s c (exec (.fenceRel x) s) c.w.closed ∧ NextWith (exec (.fenceRel x) s) home
    ∧ KeepsMemory s c (exec (.fenceAcq x) s) c.w.closed ∧ NextWith (exec (.fenceAcq x) s) clean
    ∧ KeepsMemory s c (exec .rfence s) c.w.closed ∧ NextWith (exec .rfence s) (fun t => (t.core key).recCache = [])

/-- R224, R225, R227, R228: RACQ on an address that translates promotes the line's owner, whose L1 writes home every
byte that is dirty at a scope no wider, in every slice, and acquires; PREF of a line that the L1 does not serve
requests it where the MSC does not hold it, and fetches it into the L1, and is dropped where its address does not
translate; CFLUSH and CINV act on every line of a range: CFLUSH writes home its dirty bytes, leaves it clean in its
MSC and not in the wave's L1, CINV leaves no valid clean byte of it there; no register changes. -/
def Obligations.CacheMaintenance : Prop :=
  ∀ (s : State) (c : Ctx) (a b : SReg) (x : BitVec 3),
    (Ready s c [a.toNat] [] → ∀ leaf pa, s.translate (c.route s).at' c.g.vd (c.w.s a) .load = .ok (leaf, pa) →
      KeepsMemory s c (exec (.racq a x) s) c.w.closed
      ∧ NextWith (exec (.racq a x) s) (fun t => (c.route s).share < x.toNat → (c.route s).fused = [] →
          ∀ line l, t.l1 (c.route s).own line = some l → l.valid = 0)
      ∧ NextWith (exec (.racq a x) s) (fun t => ∀ q, TabOps.find? s.owners (pa / 128) = some q → ∀ key ∈ s.fusedWith q,
          ((s.core key).l1.map Prod.fst).Nodup → ∀ line l i, s.l1 key line = some l → l.sc.toNat ≤ x.toNat → i < 128 →
          l.dirty.getLsbD i = true → s.lineDown line = false → ¬ CodeAt s t (line * 128 + i) →
          OnlyHere s key (line * 128 + i) → t.homeByte (line * 128 + i) = l.data.getD i 0))
    ∧ (Ready s c [a.toNat] [] → ∀ e, s.translate (c.route s).at' c.g.vd (c.w.s a) .load = .error e →
      KeepsMemory s c (exec (.pref a) s) c.w.closed)
    ∧ (Ready s c [a.toNat] [] → ∀ leaf pa, s.translate (c.route s).at' c.g.vd (c.w.s a) .load = .ok (leaf, pa) →
      let p : Part := { lane := 0, va := c.w.s a, pa := pa / 128 * 128, n := 128, leaf := leaf }
      let line := pa / 128
      let key := (c.route s).slice (line * 128)
      s.badLines (c.route s) false [p] = [] →
      KeepsMemory s c (exec (.pref a) s) c.w.closed
      ∧ (s.lineServed (c.route s) false [p] line = false → s.Sound → NextWith (exec (.pref a) s) fun t =>
          (∃ l, t.l1 key line = some l ∧ ∀ i, i < 128 → (l.dirty.getLsbD i || l.valid.getLsbD (i / 16)) = true
            ∧ l.data.getD i 0 = s.viewByte key (line * 128 + i) false)
          ∧ (s.mscHolds line 0 128 = false → { vd := c.g.vd, line := line, off := 0, size := 128, alloc := true }
              ∈ TabOps.get [] t.requests (s.homeDie (line * 128)))))
    ∧ (Ready s c [a.toNat, b.toNat] [] →
      let lines := s.rangeLines (c.route s) (c.w.s a).toNat (c.w.s b).toNat
      KeepsMemory s c (exec (.cflush a b) s) c.w.closed ∧ KeepsMemory s c (exec (.cinv a b) s) c.w.closed
      ∧ NextWith (exec (.cflush a b) s) (fun t => ∀ line ∈ lines, t.l1 ((c.route s).slice (line * 128)) line = none
          ∧ (∀ m, TabOps.find? t.msc line = some m → m.dirty = 0)
          ∧ ∀ l i, s.l1 ((c.route s).slice (line * 128)) line = some l → i < 128 → l.dirty.getLsbD i = true →
              s.lineDown line = false → ¬ CodeAt s t (line * 128 + i) → t.homeByte (line * 128 + i) = l.data.getD i 0)
      ∧ NextWith (exec (.cinv a b) s) (fun t => ∀ line ∈ lines, ∀ l,
          t.l1 ((c.route s).slice (line * 128)) line = some l → l.valid = 0))

/-- R196, R229, R230: MSCPIN of a legal window whose pages translate and pass the checks pins it and writes its handle;
an illegal operand writes code 1, a failed check its code, and pins nothing. MSCUNPIN withdraws the device's own window
of its handle. The model's choices in it: the lowest code of several, and code 1 before any translation (log 79). -/
def Obligations.Pinning : Prop :=
  ∀ (s : State) (c : Ctx) (d a b : SReg),
    let v := c.w.s b
    let blocks := v.toNat / 256 % 2 ^ 24
    let legal := (c.w.s a).toNat % 65536 = 0 ∧ v.toNat < 2 ^ 32 ∧ blocks ≠ 0 ∧ v.toNat % 256 ≠ 0
    let word := fun (code : Nat) => { c.w.closed with sregs := sregsWith c.w d (BitVec.ofNat 64 (code * 65536)) c.w.egNow }
    (Ready s c [d.toNat, a.toNat, b.toNat] [] →
      (¬ legal → LeavesWave s c (exec (.mscpin d a b) s) (word 1) c.following)
      ∧ (legal → let x := s.windowPages (c.route s) (c.w.s a) (blocks * 16)
          x.causes = 0 → let ps := x.parts.map (fun p => (p.pa, p.leaf))
          let k := s.pinCheck (c.route s) ps
          (k.1 ≠ 0 → KeepsMemory s c (exec (.mscpin d a b) s) (word k.1))
          ∧ (k.1 = 0 → NextWith (exec (.mscpin d a b) s) fun t =>
              TabOps.find? t.waves c.wid = some ({ c.w.closed with
                sregs := sregsWith c.w d (BitVec.ofNat 64 (k.2.1 * 16 + k.2.2)) c.w.egNow }.moved c c.following)
              ∧ (s.Sound → t.pins = s.pins ++
                  [{ die := k.2.1, index := k.2.2, vd := c.g.vd, pages := ps.map (fun p => p.1 / 4096),
                     fade := v.toNat % 256, count := v.toNat % 256, hit := false }]))))
    ∧ (Ready s c [a.toNat] [] → exec (.mscunpin a) s = .next { s.setWave c.wid (c.w.closed.moved c c.following) with
        pins := s.pins.filter (fun p => !(p.die * 16 + p.index == (c.w.s a).toNat % 65536 && p.vd == c.g.vd)) })


/-! ### Parallel execution -/

/-- R43, R158, R159, R160, R166: SPLIT with active and inactive halves opens a record at its target and goes on with
the lanes of its operand in the next slot and with the others after it; with one empty half only the other goes on.
JOIN away from a record's address only goes on, and so does YIELD, which forgoes its turn. The length of a skip slot is
read as a fetch reads, and only where a fragment goes past it. The model's choices in it: log 27, log 74, and log 64 for the
lowest free record and entry. -/
def Obligations.SplitsAndJoins : Prop :=
  ∀ (s : State) (c : Ctx) (a : SReg) (o : BitVec 15) (p : BitVec 16) (q i : Nat),
    let regs := if c.w.width = 128 then [a.toNat, a.toNat + 1] else [a.toNat]
    let x : LaneMask := (if c.w.width = 128 then c.w.s (a + 1) ++ c.w.s a else (c.w.s a).zeroExtend 128)
      &&& c.w.everyLane
    let skip := c.following + BitVec.ofNat 64
      (if p.toNat / 1024 = 62 then 2 else if p.getLsbD 15 = false ∧ p.getLsbD 8 = true then 8 else 4)
    let opened : Rec :=
      { addr := c.f.pc + 2 * o.signExtend 64, expected := c.f.lanes, arrived := 0, call := none, parent := c.f.rec?,
        first := none, bound := 0 }
    let first : Fragment :=
      { c.f.moved c.following with lanes := c.f.lanes &&& x, mask := c.f.mask &&& x, rec? := some q }
    let second : Fragment :=
      { c.f.moved skip with lanes := c.f.lanes &&& ~~~x, mask := c.f.mask &&& ~~~x, rec? := some q }
    (Ready s c regs [] → ¬ (c.w.width = 128 ∧ a.toNat % 2 = 1) →
      (c.f.lanes &&& x ≠ 0 → c.f.lanes &&& ~~~x = 0 →
          LeavesWave s c (exec (.split a o) s) c.w.closed c.following)
      ∧ (s.fetchParcel c.wid c.w c.g c.following = .ok p →
        (c.f.lanes &&& x = 0 → LeavesOnly s c (exec (.split a o) s) (c.w.closed.moved c skip))
        ∧ (c.f.lanes &&& x ≠ 0 → c.f.lanes &&& ~~~x ≠ 0 →
            c.w.recs[q]? = some none → (∀ j < q, c.w.recs[j]? ≠ some none) →
            c.w.frags[i]? = some none → (∀ j < i, c.w.frags[j]? ≠ some none) →
            LeavesOnly s c (exec (.split a o) s) { c.w.closed with
              recs := c.w.recs.set q (some opened)
              frags := (c.w.frags.set c.fid (some first)).set i (some second) })))
    ∧ (Ready s c [a.toNat] [] → LeavesWave s c (exec (.join a) s) c.w.closed c.following)
    ∧ (s.ctx? = some c → exec .yield s = .next (s.setWave c.wid { c.w.closed with
        frags := c.w.frags.set c.fid (some { c.f.moved c.following with yielded := true }) }))

/-- R157, R160, R161: ENDW frees the fragment's entry; with its last fragment the wave ends, without an event pending,
and no memory changes; its registers, which nothing reads from then on, hold what they held (log 84). A fragment that stands at its record's address, ready or stalled,
arrives and waits there, once the JOIN's register is not pending (R292); the last one of a record opened by SPLIT fuses with
the others: lanes and masks united, the record's parent, the address after the JOIN. That the fused fragment takes the lowest
of their entries and frees the others is the model's choice (log 64), and so is that a register that is not allocated raises
nothing there. At a record's bound, counted up to the wave's stop where it has been stopped (R158), the fragments that have
not arrived move to its parent. -/
def Obligations.FragmentEnds : Prop :=
  (∀ (s : State) (c : Ctx), s.ctx? = some c → (∀ r ∈ c.w.recs, r = none) → c.w.inh ≠ some c.fid →
    NextWith (exec .endw s) fun t => t.dram = s.dram ∧ t.msc = s.msc ∧ WaveIs t c.wid fun w =>
      w.frag? c.fid = none
      ∧ w.sregs = c.w.sregs ∧ w.vregs = c.w.vregs
      ∧ ((∀ i, i ≠ c.fid → c.w.frag? i = none) → w.life = .ended ∧ w.evpend = 0)
      ∧ ((∃ i, i ≠ c.fid ∧ c.w.frag? i ≠ none) → w.life = c.w.life))
  ∧ (∀ (s : State) (wid fid q n : Nat) (w : Wave) (f : Fragment) (g : Grid) (r : Rec) (a : SReg),
    TabOps.find? s.waves wid = some w → w.frag? fid = some f → TabOps.find? s.grids w.grid = some g →
    f.rec? = some q → w.recs[q]? = some (some r) → (∀ j, j ≠ q → w.recs.getD j none = none) → r.call = none →
    f.pc = r.addr → s.fetch wid w g r.addr = .instr (.join a) n → w.pendingAny [a.toNat] = false → f.lanes ≠ 0 →
    (f.park = .ready ∨ f.park.stalls = true → ¬ (r.arrived ||| f.lanes) &&& r.expected = r.expected →
      NextWith (exec (.fragmentArrive wid fid) s) fun t => WaveIs t wid fun v =>
        v.frag? fid = some { f with park := .joined, plen := n }
        ∧ v.recs.getD q none = some { r with
            arrived := r.arrived ||| f.lanes
            first := some (r.first.getD (s.core (w.die * 48 + w.core)).cycle)
            bound := if r.first = none then w.s a else r.bound })
    ∧ (∀ (j : Nat) (h : Fragment), f.park = .ready ∨ f.park.stalls = true → j ≠ fid → w.frag? j = some h → h.rec? = some q →
        h.park = .joined → h.pc = f.pc → h.plen = n → (∀ k, k ≠ fid → k ≠ j → w.frag? k = none) →
        (r.arrived ||| f.lanes) &&& r.expected = r.expected → r.parent ≠ some q →
        NextWith (exec (.fragmentArrive wid fid) s) fun t => WaveIs t wid fun v =>
          v.recs.getD q none = none ∧ v.frag? (max fid j) = none ∧ ∃ k, v.frag? (min fid j) = some k
            ∧ k.lanes = f.lanes ||| h.lanes ∧ k.mask = f.mask ||| h.mask ∧ k.pc = f.pc + BitVec.ofNat 64 n
            ∧ k.rec? = r.parent ∧ k.park = .ready))
  ∧ (∀ (s : State) (wid fid q : Nat) (w : Wave) (f : Fragment) (r : Rec) (first : Word),
    TabOps.find? s.waves wid = some w → w.frag? fid = some f → f.rec? = some q → w.recs[q]? = some (some r) →
    (∀ j, j ≠ q → w.recs.getD j none = none) → r.call = none → f.park ≠ .joined → r.first = some first →
    r.bound ≠ 0 →
    r.bound.toNat ≤ ((match w.stopAt with | some x => x | none => (s.core (w.die * 48 + w.core)).cycle) - first).toNat →
    NextWith (exec (.joinBoundExpire wid q) s) fun t => WaveIs t wid fun v =>
      v.recs.getD q none = none ∧ v.frag? fid = some { f with rec? := r.parent })

/-- R167, R168, R169, R170: BAR, NBAR.ARV, NBAR.WT and CARVE, and the completion of a CARVE. BAR waits, after a
release, until the last wave of its team arrives, and then goes on; NBAR.ARV counts one arrival and completes its
phase at the count; NBAR.WT waits for the wave's recorded phase, or the open one; CARVE waits with its operands, and
at its completion the team, whose old scratchpad holds no byte beyond its size, has the new sizes, bytes below both sizes
as they were and the others 0. The model's choices in it: log 42, and log 64 for the record that an NBAR.WT clears which
need not wait. -/
def Obligations.Barriers : Prop :=
  (∀ (s : State) (c : Ctx), s.ctx? = some c → c.wid ∈ c.t.waves → c.w.life ≠ .ended →
    let stands := fun (j : Nat) (k : Nat) => ∃ w f, TabOps.find? s.waves j = some w ∧ w.life ≠ .ended
      ∧ w.frag? k = some f ∧ f.park ≠ .bar ∧ (j ≠ c.wid ∨ k ≠ c.fid)
    ((∃ j ∈ c.t.waves, ∃ k, stands j k) → NextWith (exec .bar s) fun t =>
      TabOps.find? t.waves c.wid = some (c.w.closed.parked s c .bar) ∧ MemoryFrame s t (fun _ => False))
    ∧ ((∀ j ∈ c.t.waves, ∀ k, ¬ stands j k) → NextWith (exec .bar s) fun t =>
      MemoryFrame s t (fun _ => False)
      ∧ WaveIs t c.wid fun w => w.issued = 0 ∧ ∃ f, w.frag? c.fid = some f ∧ f.pc = c.following ∧ f.park = .ready))
  ∧ (∀ (s : State) (c : Ctx) (a : SReg) (k : BitVec 4), Ready s c [a.toNat] [] →
    let n := (c.w.s a).toNat
    let b := c.t.nbars.getD k.toNat { phase := 0, open? := none }
    let m := (b.open?.map Prod.snd).getD 0 + 1
    let b' : NBar := if m = n then { phase := (b.phase + 1) % 65536, open? := none } else { b with open? := some (n, m) }
    1 ≤ n → n ≤ 32 → (∀ x, b.open? = some x → x.1 = n) → NextWith (exec (.nbarArv a k) s) fun t =>
      MemoryFrame s t (fun _ => False)
      ∧ TabOps.find? t.teams c.w.team = some { c.t with nbars := c.t.nbars.set k.toNat b' }
      ∧ WaveIs t c.wid fun w => w.frag? c.fid = some (c.f.moved c.following) ∧ w.sregs = c.w.sregs
          ∧ w.nbarRec = c.w.nbarRec.set k.toNat (some b.phase))
  ∧ (∀ (s : State) (c : Ctx) (k : BitVec 4), s.ctx? = some c → (∀ j q, c.f.park ≠ .nbar j q) →
    let b := c.t.nbars.getD k.toNat { phase := 0, open? := none }
    let mine := c.w.nbarRec.getD k.toNat none
    let waits := b.open? ≠ none ∧ (mine = none ∨ mine = some b.phase)
    (waits → exec (.nbarWt k) s = .next (s.setWave c.wid (c.w.closed.parked s c (.nbar k b.phase))))
    ∧ (¬ waits → NextWith (exec (.nbarWt k) s) fun t => MemoryFrame s t (fun _ => False)
      ∧ TabOps.find? t.waves c.wid
          = some ({ c.w.closed with nbarRec := c.w.nbarRec.set k.toNat none }.moved c c.following)))
  ∧ (∀ (s : State) (c : Ctx) (a b : SReg), Ready s c [a.toNat, b.toNat] [] → (∀ i, i ≠ c.fid → c.w.frag? i = none) →
    NextWith (exec (.carve a b) s) fun t => MemoryFrame s t (fun _ => False)
      ∧ TabOps.find? t.waves c.wid = some (c.w.closed.parked s c (.carve (c.w.s a) (c.w.s b))))
  ∧ (∀ (s : State) (tid : Nat) (u : Team) (g : Grid) (x y : Word) (rest : List (Word × Word)),
    TabOps.find? s.teams tid = some u → TabOps.find? s.grids u.grid = some g → s.carveArgs u = (x, y) :: rest →
    s.allParked u atCarve = true → s.carveOk tid u g ((x, y) :: rest) = true → s.teamOps tid = [] →
    (∀ i, u.spSize ≤ i → MemOps.read u.sp i = 0) →
    NextWith (exec (.carveComplete tid) s) fun t => MemoryFrame s t (fun _ => False)
      ∧ TeamIs t tid (fun v => v.spSize = x.toNat * 1024 ∧ v.l1x = y.toNat
        ∧ ∀ i, MemOps.read v.sp i = if i < x.toNat * 1024 ∧ i < u.spSize then MemOps.read u.sp i else 0)
      ∧ ∀ j ∈ u.waves, ∀ w k f, TabOps.find? s.waves j = some w → w.life ≠ .ended → w.frag? k = some f →
          WaveIs t j fun v => v.frag? k = some (f.moved (f.pc + BitVec.ofNat 64 f.plen)))

/-- R171 to R174: EVBIND of a legal descriptor binds its slot, pending at once where its source has happened (a stage
of a circular buffer is the one that is oldest at the bind: log 40); MBX.SEND and MBX.SEND.rel add a token to a slot
of the wave that the handle names, and set EVOVF instead where the slot holds 255. -/
def Obligations.EventSlots : Prop :=
  (∀ (s : State) (c : Ctx) (k : BitVec 4) (a : SReg) (o : BitVec 15), Ready s c [a.toNat] [] →
    let v := c.w.s a
    let kind := v.toNat / 2 ^ 60
    let h := if o = 0 then 0 else c.f.pc + 2 * o.signExtend 64
    let cb := c.t.cbs.getD (v.toNat % 8) none
    let pend : Bool := if kind = 2 then
        decide (((c.w.batches.getD (v.toNat / 65536 % 4) { cl := 0, dn := 0, opened := [], closed := [] }).dn
          - v.extractLsb' 0 16).toNat < 32768)
      else if kind = 3 then cb.any (fun b => b.com != b.rel)
      else if kind = 4 then c.w.counts.getD k.toNat 0 != 0 else decide (kind = 6 ∧ v.toNat % 2 ^ 32 = 0)
    (kind = 0 ∨ kind = 4 ∨ kind = 5 → v.toNat % 2 ^ 60 = 0) → (kind = 1 → v.toNat % 2 ^ 60 < 16) →
    (kind = 2 → v.toNat % 2 ^ 60 < 2 ^ 18) → (kind = 3 → v.toNat % 2 ^ 60 < 8 ∧ cb ≠ none) →
    (kind = 6 → v.toNat % 2 ^ 60 < 2 ^ 32) → kind ≤ 6 → h.toNat % 4 = 0 →
    LeavesWave s c (exec (.evbind k a o) s) { c.w.closed with
      evv := c.w.evv.set k.toNat h
      evpend := if pend then c.w.evpend ||| BitVec.ofNat 16 (2 ^ k.toNat) else c.w.evpend &&& ~~~BitVec.ofNat 16 (2 ^ k.toNat)
      binds := c.w.binds.set k.toNat
        { kind := BitVec.ofNat 4 kind, cls := if kind = 2 then v.extractLsb' 16 2 else 0
          arg := if kind = 6 then 0 else v.extractLsb' 0 16, stage := if kind = 3 then (cb.map Cb.rel).getD 0 else 0
          armed := !pend
          deadline := if kind = 6 then
            some ((s.core (c.w.die * 48 + c.w.core)).cycle + BitVec.ofNat 64 (v.toNat % 2 ^ 32)) else none } }
      c.following)
  ∧ (∀ (s : State) (c : Ctx) (a : SReg) (k : BitVec 4) (i : Nat) (v : Wave), Ready s c [a.toNat] [] → i ≠ c.wid →
    s.byHandle c.w.issueDie ((c.w.s a).extractLsb' 0 24) = some i → TabOps.find? s.waves i = some v →
    ∀ p ∈ ([(.mbxSend a k, false), (.mbxSendRel a k, true)] : List (Instr × Bool)),
    let n := v.counts.getD k.toNat 0
    let scope : BitVec 3 := if p.2 then (if v.life = .running ∧ v.die = c.w.die then 4 else 5) else 0
    let old := v.tokScope.getD k.toNat 0
    NextWith (exec p.1 s) fun t => MemoryFrame s t (fun _ => False)
      ∧ TabOps.find? t.waves c.wid = some (c.w.closed.moved c c.following)
      ∧ TabOps.find? t.waves i = some (if n = 255 then { v with evovf := true } else { v with
          counts := v.counts.set k.toNat (n + 1)
          tokScope := v.tokScope.set k.toNat (if old.toNat < scope.toNat then scope else old)
          evpend := if (v.binds.getD k.toNat Binding.none).kind = 4 then v.evpend ||| BitVec.ofNat 16 (2 ^ k.toNat)
            else v.evpend }))

/-- R181, R182: EVMASK gives the old eligibility bits and takes new ones, of which those of slots without an event count
from the next cycle on; EVPOLL gives the status word, EVCLR clears the
pending bits and the counts of the slots that its register names and, with bit 16, EVOVF; no slot is armed by it.
Every EVT word of operations 5 to 7 with another index than 0 is refused. -/
def Obligations.EventRegisters : Prop :=
  (∀ (s : State) (c : Ctx) (d a : SReg),
    (Ready s c [d.toNat, a.toNat] [] → LeavesWave s c (exec (.evmask d a) s) { c.w.closed with
      sregs := sregsWith c.w d (c.w.evmask.zeroExtend 64) c.w.egNow
      evmask := (c.w.s a).extractLsb' 0 16
      maskNew := (c.w.s a).extractLsb' 0 16 &&& ~~~c.w.evmask &&& ~~~c.w.evpend
      maskAt := (s.core (c.w.die * 48 + c.w.core)).cycle } c.following)
    ∧ (Ready s c [d.toNat] [] → LeavesWave s c (exec (.evpoll d) s) { c.w.closed with
      sregs := sregsWith c.w d (BitVec.ofNat 64 (c.w.handle.toNat * 2 ^ 40 + (if c.w.evovf then 2 ^ 32 else 0)
        + c.w.evmask.toNat * 65536 + c.w.evpend.toNat)) c.w.egNow } c.following)
    ∧ (Ready s c [a.toNat] [] → NextWith (exec (.evclr a) s) fun t => WaveIs t c.wid fun w =>
      w.frag? c.fid = some (c.f.moved c.following) ∧ w.sregs = c.w.sregs
      ∧ w.evpend = c.w.evpend &&& ~~~(c.w.s a).extractLsb' 0 16
      ∧ w.evovf = (c.w.evovf && !(c.w.s a).getLsbD 16)
      ∧ w.binds = c.w.binds
      ∧ ∀ k < 16, w.counts.getD k 0 = if (c.w.s a).getLsbD k then 0 else c.w.counts.getD k 0))
  ∧ (∀ w : BitVec 32, w.extractLsb' 25 7 = 95 → 5 ≤ (w.extractLsb' 4 3).toNat → w.extractLsb' 0 4 ≠ 0 →
      ∀ i, decode (.word w) ≠ .ok i)
  ∧ decode (.word 0xBE512050) = .ok (.evmask 10 9) ∧ decode (.word 0xBE300060) = .ok (.evpoll 6)
  ∧ decode (.word 0xBE012070) = .ok (.evclr 9)

/-- R175 to R180: WAITANY takes the lowest pending eligible slot: its number goes to d, a mailbox gives up one token
and any other slot its pending bit, and the fragment goes on at the slot's handler, or at the next instruction;
without one it waits. A wake does the same for a waiting fragment of a running wave that is not stopped, inside another
fragment's chain too, which goes on unless a handler is entered (R82); a deadline that CYCLE has reached makes its slot pending. The model's choices in it: log 48. -/
def Obligations.Waiting : Prop :=
  let takenIn := fun (w v : Wave) (d : SReg) (k : Nat) (g : Grade) =>
    let n := w.counts.getD k 0 - 1
    let mail := (w.binds.getD k Binding.none).kind = 4
    { v with
      sregs := sregsWith w d (BitVec.ofNat 64 k) g
      counts := if mail then w.counts.set k n else w.counts
      tokScope := if mail ∧ n = 0 then w.tokScope.set k 0 else w.tokScope
      evpend := if mail ∧ n ≠ 0 then w.evpend ||| BitVec.ofNat 16 (2 ^ k) else w.evpend &&& ~~~BitVec.ofNat 16 (2 ^ k) }
  let taken := fun (w : Wave) => takenIn w w.closed
  let kindOf := fun (w : Wave) (k : Nat) => (w.binds.getD k Binding.none).kind
  let goes := fun (w : Wave) (k : Nat) (next : Word) => if w.evv.getD k 0 = 0 then next else w.evv.getD k 0
  (∀ (s : State) (c : Ctx) (d a : SReg), Ready s c [d.toNat, a.toNat] [] →
    let m := (c.w.s a).extractLsb' 0 16
    let e := m &&& c.w.evmask
    (∀ k < 16, e.getLsbD k = true → c.w.evpend.getLsbD k = true →
      (∀ j < k, ¬ (e.getLsbD j = true ∧ c.w.evpend.getLsbD j = true)) →
      kindOf c.w k ≠ 0 → (kindOf c.w k = 2 → c.w.tileBad = []) →
      NextWith (exec (.waitany d a) s) fun t => MemoryFrame s t (fun _ => False)
        ∧ TabOps.find? t.waves c.wid = some ((taken c.w d k c.w.egNow).moved c (goes c.w k c.following)))
    ∧ ((∀ k < 16, ¬ (e.getLsbD k = true ∧ c.w.evpend.getLsbD k = true)) →
      (∃ k < 16, e.getLsbD k = true ∧ kindOf c.w k ≠ 0) →
      exec (.waitany d a) s = .next (s.setWave c.wid (c.w.closed.parked s c (.waitany d m)))))
  ∧ (∀ (s : State) (wid fid k : Nat) (w : Wave) (f : Fragment) (d : SReg) (m : BitVec 16),
    TabOps.find? s.waves wid = some w → w.life = .running → w.stopAt = none → w.frag? fid = some f →
    f.park = .waitany d m → (∀ i g, w.frag? i = some g → i ≠ fid → ∀ d' m', g.park ≠ .waitany d' m') → k < 16 → m.getLsbD k = true →
    w.evmask.getLsbD k = true → ((s.core (w.die * 48 + w.core)).cycle = w.maskAt → w.maskNew.getLsbD k = false) →
    w.evpend = BitVec.ofNat 16 (2 ^ k) → (kindOf w k = 2 → w.tileBad = []) →
    (kindOf w k = 4 → w.counts.getD k 0 = 1) →
    NextWith (exec (.waitanyWake wid) s) fun t => MemoryFrame s t (fun _ => False)
      ∧ TabOps.find? t.waves wid
          = some { takenIn w (if w.evv.getD k 0 = 0 then s.closedFor wid fid w else w.closed) d k w.eg with
          frags := w.frags.set fid (some (f.moved (goes w k (f.pc + BitVec.ofNat 64 f.plen)))) })
  ∧ (∀ (s : State) (wid : Nat) (k : BitVec 4) (w : Wave) (b : Binding) (x : Word),
    TabOps.find? s.waves wid = some w → w.binds[k.toNat]? = some b → b.deadline = some x → b.armed = true →
    w.life = .running → b.kind = 6 →
    ((match w.stopAt with | some y => y | none => (s.core (w.die * 48 + w.core)).cycle) - x).toNat < 2 ^ 63 →
    exec (.deadlineFire wid k) s = .next (s.setWave wid { w with
      evpend := w.evpend ||| BitVec.ofNat 16 (2 ^ k.toNat)
      binds := w.binds.set k.toNat { b with armed := false } }))

/-- R44, R149 to R157, R262, R389, R391: LAUNCH of a legal packet gives the dispatcher a child grid whose grade its
parent's caps; a grid's next neighbourhood is placed on the first die and origin that fit, with all its teams and
waves in their starting states; an ended team without operations frees its waves; a grid that is over retires, its record
written, or, where the record's page is not mapped, its fault offered to the resident kernel first (R293). The model's
choices in it: log 5, log 17, log 19. -/
def Obligations.Launches : Prop :=
  (∀ (s : State) (c : Ctx) (a : SReg), Ready s c [a.toNat] [] →
    let s' := s.release (c.route s) 4 (.child s.opNext)
    let x := s'.peek (c.route s) (c.w.s a) 128
    let p := Packet.ofWords (wordsOf x.2 16)
    c.w.idx = 0 → (c.w.s a).toNat % 64 = 0 → c.g.depth ≠ 10 → x.1.causes = 0 →
    Served s' c false x.1.parts → packetLegal (wordsOf x.2 16) false = true →
    NextWith (exec (.launch a) s) fun t => MemoryFrame s t (fun _ => False) ∧ t.opNext = s.opNext + 1
      ∧ TabOps.find? t.waves c.wid = some (c.w.closed.moved c c.following)
      ∧ ∃ g, TabOps.find? t.grids s.opNext = some g ∧ g.packet = p ∧ g.parent = some c.w.grid ∧ g.depth = c.g.depth + 1
        ∧ g.launchG = Grade.min p.grade c.g.launchG ∧ g.vd = c.g.vd ∧ g.owner = c.g.owner ∧ g.life = .running
        ∧ g.nextNb = 0 ∧ g.parentW = if p.notify then some c.wid else none)
  ∧ (∀ (s : State) (gid die o : Nat) (g : Grid), TabOps.find? s.grids gid = some g → g.life = .running →
    g.drain = false → g.nextNb < g.packet.nbs → g.fixed = none → g.early = none → die < 24 →
    (∀ d < die, (s.vd g.vd).dies.getLsbD d = false ∨ s.diePlaces d = false
      ∨ s.findOrigin g.packet (g.packet.nbTeams g.nextNb) d g.packet.carveBytes = none) →
    (s.vd g.vd).dies.getLsbD die = true → s.diePlaces die = true →
    s.findOrigin g.packet (g.packet.nbTeams g.nextNb) die g.packet.carveBytes = some o →
    let L := if (s.die die).service = .twilight then Grade.min g.launchG 1 else g.launchG
    NextWith (exec (.dispatchNeighbourhood gid) s) fun t =>
      (∃ g', TabOps.find? t.grids gid = some g' ∧ g'.nextNb = g.nextNb + 1 ∧ g'.launchG = L)
      ∧ ∃ nb n, TabOps.find? t.nbs nb = some n ∧ n.grid = gid ∧ n.index = g.nextNb ∧ n.life = .placed ∧ n.die = die
        ∧ n.origin = o ∧ n.teams.length = g.packet.nbTeams g.nextNb
        ∧ ∀ tid ∈ n.teams, TeamIs t tid fun u => u.grid = gid ∧ u.waves.length = g.packet.waves ∧ u.sp = []
          ∧ ∀ i ∈ u.waves, WaveIs t i fun w => w.team = tid ∧ w.sregs = List.replicate 64 ⟨0, L⟩
            ∧ w.vregs = List.replicate g.packet.nv ⟨List.replicate g.packet.width 0, L, 0⟩ ∧ w.gst = L.zeroExtend 64
            ∧ w.flg = 0 ∧ w.aflg = 0 ∧ w.cause = 0 ∧ w.inh = none ∧ w.evpend = 0 ∧ w.latches = []
            ∧ w.frags = some (Fragment.first w.width g.packet.entry) :: List.replicate 7 none)
  ∧ (∀ (s : State) (tid : Nat) (u : Team), TabOps.find? s.teams tid = some u → u.life = .ended → s.teamOps tid = [] →
    u.tileBusy = false → NextWith (exec (.teamRetire tid) s) fun t => MemoryFrame s t (fun _ => False)
      ∧ TeamIs t tid (fun v => v.life = .retired ∧ v.sp = [] ∧ v.tiles = [])
      ∧ ∀ i ∈ u.waves, TabOps.find? t.waves i = none)
  ∧ (∀ (s : State) (gid : Nat) (g : Grid), TabOps.find? s.grids gid = some g → g.life = .running ∨ g.life = .stopping →
    s.gridOver gid g = true →
    let mapped := g.packet.cpl = 0 ∨ ∃ x, s.translate (ioDie g.vd) g.vd g.packet.cpl .store = .ok x
    (¬ mapped → g.asked ≠ 2 → NextWith (exec (.gridRetire gid) s) fun t => MemoryFrame s t (fun _ => False)
      ∧ TabOps.find? t.grids gid = some { g with asked := 1 } ∧ t.waves = s.waves ∧ t.teams = s.teams)
    ∧ (mapped ∨ g.asked = 2 → NextWith (exec (.gridRetire gid) s) fun t =>
      TabOps.find? t.grids gid = some { g with life := .retired, image := [], dict := [] }
      ∧ (∀ u ∈ t.teams, u.2.grid ≠ gid) ∧ (∀ n ∈ t.nbs, n.2.grid ≠ gid)
      ∧ (g.queue = none → g.packet.cpl ≠ 0 → (∀ e ∈ s.retrace.log, e.rung = true ∨ (e.grids.head? ≠ some gid
            ∧ ∀ h x, e.grids.head? = some h → TabOps.find? s.grids h = some x → x.life ≠ .retired)) →
          ∀ l pa, (s.releaseGrid gid g).translate (ioDie g.vd) g.vd g.packet.cpl .store
          = .ok (l, pa) → pa % 32 = 0 → (∀ a, pa ≤ a → a < pa + 32 → ¬ CodeAt s t a) →
          t.homeSeen g.shadow pa 32 = leBytes (g.state * 2 ^ 56) 8 ++ leBytes g.cause.toNat 8 ++ leBytes g.tpc.toNat 8
            ++ leBytes g.tinfo.toNat 8)))

/-! ### Engines -/

/-- R284 to R287, R292, R322, R324 to R326, R367, R368: the copy, bank and collective commands, with and without `.rel`,
whose descriptor can be read, is legal and passes its checks, join their engine's queue and their wave's open batch; their
completion register, which an earlier command may still have pending, is pending and the next instruction follows. The
model's choice in it: log 69. -/
def Obligations.EngineCommands : Prop :=
  ∀ (s : State) (c : Ctx) (d a : SReg) (rel : Bool), Ready s c [a.toNat] [] → c.w.budget [d.toNat, a.toNat] [] = true →
    let r := c.route s
    let va := c.w.s a
    let x := s.locate r.at' r.vd .load 0 va 32
    let ws := wordsOf (seenBytes s c false x.parts) 4
    let w2 := ws.getD 2 0
    let g := lowestPage x.parts
    let s' := s.keepParts r x.parts
    let inside := fun (space : Nat) (at' : Word) (n : Nat) =>
      space = 0 ∨ ∃ ps, s'.spBytes c.w.team c.t c.g (space == 2) at' n = .ok ps
    va.toNat % 32 = 0 → x.causes = 0 → Served s c false x.parts →
    (c.w.idx = c.g.packet.producer → s.copyQueue c.w.key < 1024 →
      (∀ p ∈ ([(.xcopy d a rel, .copy), (.xred d a rel, .reduce), (.xfill d a rel, .fill)] : List (Instr × CopyOp)),
        ∀ cmd, copyCmd p.2 ws g = some cmd → inside cmd.dspace cmd.dst cmd.len →
        (p.2 = .fill ∨ inside cmd.sspace cmd.src cmd.len) → Starts s c (exec p.1 s) (.copy cmd) d 0 (fun _ => True))
      ∧ (∀ cmd q, copyCmd .gather ws g = some cmd → inside cmd.dspace cmd.dst cmd.len →
        let s2 := s'.loadParts r 0 0 x.parts
        Waited s2 c r.past false (s2.recParts r c.g (w2.toNat / 2 ^ 56)) →
        s2.record r c.g (w2.toNat / 2 ^ 56) = .ok q → (cmd.src.toNat + cmd.len ≤ BufRec.extent q ∨ BufRec.oobz q = true) →
        (BufRec.ilv q = 1 → ∀ i < cmd.len / 4, ∀ p ∈ (({ cmd with record := q } : CopyCmd).gather s2 r i).parts,
          p.leaf.ba = true) →
        Starts s c (exec (.xgath d a rel) s) (.copy { cmd with record := q }) d 0 (fun _ => True)))
    ∧ (∀ p ∈ ([(.nbzero d a rel, .zero), (.nbcopy d a rel, .copy), (.nbaxpy d a rel, .axpy), (.nbdot d a rel, .dot),
          (.nbscal d a rel, .scal)] : List (Instr × BankOp)),
        ∀ as, bankOk p.2 ws = true → bankTranslate s' r (bankOperands p.2 ws) = .ok as →
        let cmd := bankCmd p.2 ws g as
        (∀ y ∈ as, y.1.pa / 2 ^ 36 = cmd.stack) → (TabOps.get [] s.intake cmd.stack).length < 64 →
        Starts s c (exec p.1 s) (.bank cmd) d 2 (fun t =>
          TabOps.get [] t.intake cmd.stack = TabOps.get [] s.intake cmd.stack ++ [s.opNext]))
    ∧ (c.w.idx = c.g.packet.producer →
        let y := s'.groupRead r (w2.toNat / 2 ^ 56)
        y.causes = 0 → Served s' c false y.parts → s.collQueue c.w.key < 64 →
        ∀ q, rankOf y.ranks (· == endpointOf s.moduleNo c.w.issueDie c.w.handle) = some q →
        ∀ p ∈ ([(.xar d a rel, 0), (.xag d a rel, 1), (.xrs d a rel, 2), (.xbcst d a rel, 3)] : List (Instr × Nat)),
        collOk p.2 ws y.ranks.length q = true →
        let cmd := s.collCmd c.g.shadow p.2 ws c.g.vd y q
        Starts s c (exec p.1 s) (.coll cmd) d 3 (fun t =>
          TabOps.get 0 t.collSeq (cmd.key c.g.shadow) = cmd.seq + 1))

/-- R243, R294, R334: BCLOSE closes the open batch of its class under the next number, at once complete where it is
empty and none is before it; BWAIT of a complete batch of another class than BANK leaves no valid clean byte in the
wave's L1 (an acquire at system scope), of class BANK acquires nothing, and goes on; of another batch it waits; BFENCE
waits while a bank command of the wave is outstanding, and then acquires likewise and goes on. A BWAIT that has parked keeps
the batch number that it read, whatever has become of its register. An instruction that reads a register with a status word that is new, here SADD, acts as after an acquire at system scope. The model's
choices in it: log 39, log 48, log 50. -/
def Obligations.BatchControl : Prop :=
  let clean := fun (r : Route) (t : State) => r.fused = [] → ∀ line l, t.l1 r.own line = some l → l.valid = 0
  (∀ (s : State) (c : Ctx) (d a : SReg) (k : BitVec 2),
    let b := c.w.batches.getD k.toNat { cl := 0, dn := 0, opened := [], closed := [] }
    let n := (c.w.s a).extractLsb' 0 16
    (Ready s c [d.toNat] [] → (b.cl + 1 - b.dn).toNat < 32768 → k.toNat < c.w.batches.length →
      NextWith (exec (.bclose d k) s) fun t => MemoryFrame s t (fun _ => False) ∧ WaveIs t c.wid fun w =>
        let b' := w.batches.getD k.toNat { cl := 0, dn := 0, opened := [], closed := [] }
        w.frag? c.fid = some (c.f.moved c.following) ∧ w.vregs = c.w.vregs
        ∧ w.sregs = sregsWith c.w d ((b.cl + 1).zeroExtend 64) c.w.egNow ∧ b'.cl = b.cl + 1 ∧ b'.opened = []
        ∧ (b.closed = [] → b.opened = [] → b'.dn = b.dn + 1 ∧ b'.closed = [])
        ∧ (b.closed = [] → b.opened ≠ [] → b'.dn = b.dn ∧ b'.closed = [((b.cl + 1).toNat, b.opened)]))
    ∧ (Ready s c [a.toNat] [] → (∀ j m, c.f.park ≠ .bwait j m) →
      ¬ (1 ≤ (n - b.cl).toNat ∧ (n - b.cl).toNat ≤ 32767) →
      ((b.dn - n).toNat < 32768 → (k = 1 → c.w.tileBad = []) →
        (k = 2 → LeavesWave s c (exec (.bwait a k) s) c.w.closed c.following)
        ∧ (k ≠ 2 → NextWith (exec (.bwait a k) s) fun t => MemoryFrame s t (fun _ => False) ∧ clean (c.route s) t
          ∧ TabOps.find? t.waves c.wid = some (c.w.closed.moved c c.following)))
      ∧ (32768 ≤ (b.dn - n).toNat →
        exec (.bwait a k) s = .next (s.setWave c.wid (c.w.closed.parked s c (.bwait k n)))))
    ∧ (∀ j m, s.ctx? = some c → c.f.park = .bwait j m → (b.dn - m).toNat < 32768 →
      ¬ (1 ≤ (m - b.cl).toNat ∧ (m - b.cl).toNat ≤ 32767) → (k = 1 → c.w.tileBad = []) →
      NextWith (exec (.bwait a k) s) fun t => MemoryFrame s t (fun _ => False)
        ∧ TabOps.find? t.waves c.wid = some (c.w.closed.moved c c.following)))
  ∧ (∀ (s : State) (c : Ctx), s.ctx? = some c →
    let busy := ∃ o ∈ s.ops, o.2.wave = c.wid ∧ ∃ b, o.2.body = .bank b
    (busy → exec .bfence s = .next (s.setWave c.wid (c.w.closed.parked s c .bfence)))
    ∧ (¬ busy → NextWith (exec .bfence s) fun t => MemoryFrame s t (fun _ => False) ∧ clean (c.route s) t
      ∧ TabOps.find? t.waves c.wid = some (c.w.closed.moved c c.following)))
  ∧ (∀ (s : State) (wid fid : Nat) (w : Wave) (f : Fragment) (u : Team) (g : Grid),
    TabOps.find? s.waves wid = some w → w.frag? fid = some f → TabOps.find? s.teams w.team = some u →
    TabOps.find? s.grids w.grid = some g → f.park = .bfence → (∀ o ∈ s.ops, o.2.wave = wid → ∀ b, o.2.body ≠ .bank b) →
    NextWith (exec (.bfenceResume wid fid) s) fun t => MemoryFrame s t (fun _ => False) ∧ clean (s.routeOf wid w u g) t
      ∧ TabOps.find? t.waves wid
        = some { w with frags := w.frags.set fid (some (f.moved (f.pc + BitVec.ofNat 64 f.plen))) })
  ∧ (∀ (s : State) (c : Ctx) (d a b : SReg), s.ctx? = some c → c.w.budget [d.toNat, a.toNat, b.toNat] [] = true →
    c.w.pendingAny [d.toNat, a.toNat, b.toNat] = false →
    let seen := [a.toNat, b.toNat].filter c.w.doneRegs.contains
    let s' := if seen = [] then s else s.acquire (c.route s) 6 (seen.map (.reg c.wid))
    exec (.sadd d a b) s = exec (.sadd d a b) (s'.setWave c.wid { c.w with
      doneRegs := c.w.doneRegs.filter (fun r => !([d.toNat, a.toNat, b.toNat].contains r)) }))

/-- R296 to R301: CBINIT sets up a buffer that is not in use; CBACQ gives the oldest free stage's number and place;
CBCOMMIT makes a stage full, or binds it to a batch that is not complete; CBWAIT of a full stage goes on, of another one
waits; CBREL counts a consumer, and the last one frees the stage. -/
def Obligations.CircularBuffers : Prop :=
  ∀ (s : State) (c : Ctx) (d a : SReg) (k : BitVec 3) (b : Cb),
    let v := c.w.s a
    let n := v.extractLsb' 0 16
    let cbAt := fun (u : Team) => u.cbs.getD k.toNat none
    let goesOn := fun (t : State) (sregs : List SRegV) => WaveIs t c.wid fun w =>
      w.frag? c.fid = some (c.f.moved c.following) ∧ w.sregs = sregs ∧ w.vregs = c.w.vregs
    k.toNat < c.t.cbs.length →
    (Ready s c [a.toNat] [] → cbOk v c.t.spSize = true → (∀ b, cbAt c.t = some b → b.inUse = false) →
      NextWith (exec (.cbinit a k) s) fun t => MemoryFrame s t (fun _ => False) ∧ goesOn t c.w.sregs
        ∧ TeamIs t c.w.team fun u => cbAt u = some
          { base := v.toNat % 2 ^ 22, size := v.toNat / 2 ^ 24 % 2 ^ 16, nstg := v.toNat / 2 ^ 48 % 16 + 1,
            ncons := v.toNat / 2 ^ 53 % 32 + 1, acq := 0, com := 0, rel := 0, pending := [], relCount := 0 })
    ∧ (cbAt c.t = some b → b.pending.head? ≠ some .full →
      (Ready s c [d.toNat] [] → (b.acq - b.rel).toNat < b.nstg → NextWith (exec (.cbacq d k) s) fun t =>
        MemoryFrame s t (fun _ => False)
        ∧ goesOn t (sregsWith c.w d (BitVec.ofNat 64
            (b.acq.toNat * 2 ^ 32 + (b.base + b.acq.toNat % b.nstg * b.size * 128))) c.w.egNow)
        ∧ TeamIs t c.w.team fun u => cbAt u = some { b with acq := b.acq + 1, pending := b.pending ++ [.acquired] })
      ∧ (Ready s c [a.toNat] [] → v.getLsbD 16 = false → ∀ rest, b.pending = .acquired :: rest → .full ∉ rest →
        NextWith (exec (.cbcommit a k) s) fun t => MemoryFrame s t (fun _ => False) ∧ goesOn t c.w.sregs
          ∧ TeamIs t c.w.team fun u => cbAt u = some { b with com := b.com + 1, pending := rest })
      ∧ (Ready s c [a.toNat] [] → v.getLsbD 16 = true → b.pending = [.acquired] →
        let copies := c.w.batches.getD 0 { cl := 0, dn := 0, opened := [], closed := [] }
        ¬ (1 ≤ (n - copies.cl).toNat ∧ (n - copies.cl).toNat ≤ 32767) → 32768 ≤ (copies.dn - n).toNat →
        NextWith (exec (.cbcommit a k) s) fun t => MemoryFrame s t (fun _ => False) ∧ goesOn t c.w.sregs
          ∧ TeamIs t c.w.team fun u => cbAt u = some { b with pending := [.bound c.wid n] })
      ∧ (Ready s c [a.toNat] [] →
        let stage := if v.getLsbD 16 then n else b.rel
        (stage - b.rel).toNat < b.nstg →
        ((stage - b.rel).toNat < (b.com - b.rel).toNat → NextWith (exec (.cbwait a k) s) fun t =>
          MemoryFrame s t (fun _ => False) ∧ TabOps.find? t.waves c.wid = some (c.w.closed.moved c c.following))
        ∧ ((b.com - b.rel).toNat ≤ (stage - b.rel).toNat →
          exec (.cbwait a k) s = .next (s.setWave c.wid (c.w.closed.parked s c (.cbwait k stage)))))
      ∧ (Ready s c [a.toNat] [] → n = b.rel → b.com ≠ b.rel → NextWith (exec (.cbrel a k) s) fun t =>
        MemoryFrame s t (fun _ => False) ∧ goesOn t c.w.sregs
        ∧ TeamIs t c.w.team fun u => cbAt u = some (if b.relCount + 1 = b.ncons then { b with
            rel := b.rel + 1
            relCount := 0
            filled := TabOps.drop b.filled b.rel.toNat } else { b with relCount := b.relCount + 1 })))

/-- R303 to R309, R312 to R314: MMA, MMA.p and MZERO whose checks pass queue on their tile halves; MRD reads and MWR
writes one part of a half with an empty queue, with tag and poison. The model's choices in it: log 13, an MRD of no lane;
log 81, the quarter of an ended wave. -/
def Obligations.MatrixInstructions : Prop :=
  (∀ (s : State) (c : Ctx) (f a : SReg) (k : BitVec 6),
    let b := Block.ofWords (c.w.s f) (c.w.s (f + 1))
    let sa := (c.w.s a).toNat
    let ws := s.quarters c.t
    let half := fun (u : Team) => u.tiles.getD k.toNat (Tile.start 0)
    let queued := fun (u : Team) => ({ u with
      tiles := u.tiles.set k.toNat { half u with queue := (half u).queue ++ [.op s.opNext] } } : Team)
    let fits := fun (rows : Nat) => (∀ q ∈ b.ranges sa rows, rangesFault c.t.spSize q = none)
      ∧ (∀ q ∈ b.aWords c.w.team sa rows, s.spPoison q = false)
    let cmd := fun (rows : Nat) (fol : Option Nat) => captureMat b c.t ws sa rows fol.isSome k
      (b.resultTag s c.w.egNow ws (b.aWords c.w.team sa rows)) fol
    (Ready s c [f.toNat, f.toNat + 1, a.toNat] [] → c.w.budget [] (b.regs c.w.width) = true →
      k.toNat < c.t.tiles.length → 4 ≤ c.t.waves.length → b.ok ((s.die c.w.die).service == .twilight) = true →
      sa % 128 = 0 → s.captureFull c.w.key = false → s.slaved c.w.key = false →
      (∀ w ∈ ws, ∀ r ∈ b.regs w.width, (w.v r).poison = 0) →
      (fits 64 → Starts s c (exec (.mma f a k) s) (.mma (cmd 64 none)) 0 1 (fun t =>
        TabOps.find? t.teams c.w.team = some (queued c.t)))
      ∧ (fits 128 → ∀ ft u, s.followerOf c.t c.g = some (ft, u) → TabOps.find? s.teams ft = some u → ft ≠ c.w.team →
          k.toNat < u.tiles.length → c.g.packet.paired = true → c.w.core % 2 = 0 →
          s.captureFull (s.teamKey ft) = false →
          Starts s c (exec (.mmaP f a k) s) (.mma (cmd 128 (some ft))) 0 1 (fun t =>
            TabOps.find? t.teams c.w.team = some (queued c.t) ∧ TabOps.find? t.teams ft = some (queued u))))
    ∧ (Ready s c [] [] → k.toNat < c.t.tiles.length → Starts s c (exec (.mzero k) s) (.mzero k) 0 1 (fun t =>
        TabOps.find? t.teams c.w.team = some (queued c.t))))
  ∧ (∀ (s : State) (c : Ctx) (kb : Bool) (d : VReg) (a : Src) (k : BitVec 6),
    let h := c.t.tiles.getD k.toNat (Tile.start 0)
    let p := ((c.w.closed.source [] a).lane 0).toNat
    let at' := fun (l : Nat) => p * c.w.width + l
    let moved := fun (w : Wave) => w.frag? c.fid = some (c.f.moved c.following) ∧ w.sregs = c.w.sregs
    Quiet c.w → (∀ j q, c.f.park ≠ .tileReady j q) → k.toNat < c.t.tiles.length → p < 8192 / c.w.width →
    s.tileQueue c.w.team k = [] →
    (let f := VecForm.bare kb [a] (.v32 d)
     VecReady s c f → f.latches = [] → NextWith (exec (.mrd kb d a k) s) fun t => MemoryFrame s t (fun _ => False)
      ∧ WaveIs t c.wid fun w => moved w ∧ w.vregs = vregsWith c.w.closed c.f.mask kb d (fun l => h.get (at' l)) h.tag
          (laneSet c.w (fun l => c.f.mask.getLsbD l && h.poison)))
    ∧ (let f := VecForm.bare false [a, d.zeroExtend 8] .none
       VecReady s c f → f.latches = [] → NextWith (exec (.mwr d a k) s) fun t => MemoryFrame s t (fun _ => False)
      ∧ WaveIs t c.wid (fun w => moved w ∧ w.vregs = c.w.vregs)
      ∧ TeamIs t c.w.team fun u => ∃ h', u.tiles[k.toNat]? = some h' ∧ h'.tag = Grade.min h.tag (c.w.v d.toNat).tag
          ∧ h'.poison = (h.poison || decide ((c.w.v d.toNat).poison &&& c.f.mask ≠ 0))
          ∧ (∀ l < c.w.width, h'.get (at' l)
              = if c.f.mask.getLsbD l then (c.w.v d.toNat).lane l else h.get (at' l))
          ∧ ∀ e, (e < at' 0 ∨ at' c.w.width ≤ e) → h'.get e = h.get e))

/-- The operation leaves the state; a running wave that names a completion register gets a status word in it. -/
def Completes (s : State) (id : Nat) (o : Op) (out : Out State) (word : Nat → Prop) (more : State → Prop) : Prop :=
  NextWith out fun t => TabOps.find? t.ops id = none ∧ more t
    ∧ ∀ r w, o.sd = some r → 1 ≤ r → r < 64 → TabOps.find? s.waves o.wave = some w → w.life = .running →
        r < w.sregs.length → (∀ p ∈ w.pendRegs, p.1 = r → p.2 = id) →
        WaveIs t o.wave fun v => word (v.s (BitVec.ofNat 6 r)).toNat ∧ ∀ p ∈ v.pendRegs, p.1 ≠ r

/-- R284, R288 to R293, R327 to R332, R369 to R374: a free context takes the oldest command of its engine, on a die out of
service only of its own waves; a copy all of whose beats have moved and none of whose elements fails commits them and reports CODE 0, its grade and its length; a resolved fault is replayed, a
declined one ends its copy; a bank command is split over its banks, each part entering its bank's queue where that has
room, read, written and completed, which discards what caches hold of its destination; a collective part whose inputs
are there commits its result, and a lost peer ends it. The values that a copy or a part reads while memory changes
under it, the order of the intake, a die out of service, and a replay, which stores apart from memory, are the model's
choices: log 20, log 46, log 62, log 66, log 68. What stands in memory is said of homes without a bad line. -/
def Obligations.EngineSteps : Prop :=
  ∀ (s : State) (id : Nat) (o : Op), TabOps.find? s.ops id = some o →
    let alone := o.queue = none ∧ TabOps.find? s.retrace.status id = none
    let ok := fun (n : Nat) (v : Nat) => v / 2 ^ 28 = 0 ∧ v % 2 ^ 24 = n % 2 ^ 24
    let stands := fun (ws : List (Nat × List Byte)) (t : State) => s.Sound → (∀ line, s.lineDown line = false) →
      ∀ pa b, storedAt ws pa = some b → ¬ CodeAt s t pa → t.homeSeen o.shadow pa 1 = [b]
    (∀ e : Bool, (s.ops.map Prod.fst).Nodup → o.life = .queued → o.body.engine = some e →
      24 ≤ o.die ∨ (s.die o.die).up = true ∨ o.wave ≠ 0 →
      let mine := s.ops.filter (fun p => p.2.die == o.die && p.2.body.engine == some e)
      (mine.filter (fun p => p.2.life == .running)).length < 16 → mine.find? (fun p => p.2.life == .queued) = some (id, o) →
      NextWith (exec (.engineContextStart o.die) s) fun t => ∃ o', TabOps.find? t.ops id = some o' ∧ o'.life = .running
        ∧ o'.wave = o.wave ∧ o'.sd = o.sd ∧ o'.cls = o.cls ∧ o'.body.engine = some e)
    ∧ (∀ cmd, o.body = .copy cmd → o.life = .running → alone → s.registerTurn id o = true →
      let es := cmd.elems s o
      (o.fault = 0 → o.allMoved = true → (∀ e ∈ es, e.code = 0) →
        gradeCheck (cmd.grade s o es) (es.flatMap (fun e => e.dst.parts)) ≠ .strict →
        Completes s id o (exec (.copyOperationComplete id) s)
          (fun v => ok cmd.len v ∧ v / 2 ^ 24 % 4 = (cmd.grade s o es).toNat)
          (fun t => cmd.dspace = 0 → cmd.op ≠ 2 →
            stands (es.zipIdx.flatMap (fun x => spreadBytes x.1.dst.parts (cmd.elemBytes s o x.2 x.1))) t))
      ∧ (o.fault ≠ 0 → o.fault < 16 →
        exec (.engineFaultResolution id true) s = .next { s with ops := TabOps.put s.ops id { o with fault := 0 } }
        ∧ Completes s id o (exec (.engineFaultResolution id false) s) (fun v => v / 2 ^ 28 = o.fault) (fun _ => True)))
    ∧ (∀ cmd, o.body = .bank cmd →
      (∀ rest, TabOps.get [] s.intake cmd.stack = id :: rest →
        cmd.split = true ∨ (cmd.regionOk = true ∧ (cmd.dst.grade.toNat ≤ cmd.t.toNat ∨ cmd.lax = true)) →
        let todo := if cmd.split then cmd.toEnter else cmd.banks
        let left := todo.filter (fun b => decide (16 ≤ (TabOps.get [] s.bankQ (bankKey cmd.stack b)).length))
        todo.Nodup → NextWith (exec (.bankCommandIntake cmd.stack) s) fun t =>
          TabOps.get [] t.intake cmd.stack = (if left = [] then rest else id :: rest)
          ∧ (∃ o' cmd', TabOps.find? t.ops id = some o' ∧ o'.life = .running ∧ o'.body = .bank cmd'
            ∧ cmd'.split = true ∧ cmd'.toEnter = left
            ∧ cmd'.toRead = (if cmd.split then cmd.toRead else cmd.readBanks)
            ∧ cmd'.toWrite = (if cmd.split then cmd.toWrite else cmd.writeBanks))
          ∧ ∀ b ∈ todo, TabOps.get [] t.bankQ (bankKey cmd.stack b)
              = TabOps.get [] s.bankQ (bankKey cmd.stack b) ++ (if b ∈ left then [] else [id]))
      ∧ (∀ bank, (TabOps.get [] s.bankQ (bankKey cmd.stack bank)).head? = some id →
        (bank ∈ cmd.toRead → NextWith (exec (.bankPartExecute id bank) s) fun t => (s.Sound → t.dram = s.dram ∧ t.msc = s.msc)
          ∧ ∃ o' cmd', TabOps.find? t.ops id = some o' ∧ o'.body = .bank cmd'
            ∧ cmd'.toRead = cmd.toRead.filter (· != bank)
            ∧ ∀ q ∈ cmd.rowsIn bank, MemOps.readBytes cmd'.snap q.1 1024 = s.dramSeen o.shadow q.1 1024)
        ∧ (cmd.toRead = [] → bank ∈ cmd.toWrite → cmd.op < 3 ∨ cmd.op = 4 →
          NextWith (exec (.bankPartExecute id bank) s) fun t => t.msc = s.msc
            ∧ ∀ row ∈ cmd.dstRows, baBank row = bank → (∀ a, row ≤ a → a < row + 1024 → ¬ CodeAt s t a) →
                t.dramSeen o.shadow row 1024 = cmd.rowBytes row))
      ∧ (cmd.split = true → cmd.toEnter = [] → cmd.toRead = [] → cmd.toWrite = [] → cmd.code = 0 → alone → s.registerTurn id o = true →
        Completes s id o (exec (.bankCommandComplete id) s) (ok cmd.dstLen) (fun t => t.dram = s.dram
          ∧ (o.shadow = none → ∀ line, cmd.dst.pa / 128 ≤ line → line ≤ (cmd.dst.pa + cmd.dstLen - 1) / 128 →
              TabOps.find? t.msc line = none ∧ ∀ key, t.l1 key line = none))))
    ∧ (∀ cmd, o.body = .coll cmd → o.life = .running → o.fault = 0 → alone → s.registerTurn id o = true →
      o.allMoved = true →
      let r := s.round cmd.vd cmd.group cmd.seq
      let ins := cmd.inputs r
      let ds := cmd.dests s o.route
      (r.lost = false → (∀ p < cmd.ranks.length, ∃ x, TabOps.find? r.parts p = some x ∧ x.blocks.isSome = true) →
        (∀ p x, TabOps.find? r.parts 0 = some p → x ∈ r.parts → x.2.agrees p = true) → cmd.rank < cmd.ranks.length →
        cmd.root < cmd.ranks.length → (∀ b ∈ ins, b.2.code = 0) → (∀ a ∈ ds, a.causes = 0) →
        gradeCheck (cmd.grade r) (partsOf ds) ≠ .strict →
        Completes s id o (exec (.collectivePartComplete id) s) (fun v => v / 2 ^ 28 = 0)
          (stands ((ds.zip (cmd.result ins)).flatMap (fun x => spreadBytes x.1.parts (leBytes x.2 4)))))
      ∧ (cmd.tmo ≠ 0 → cmd.tmo * 2 ^ 20 ≤ (s.dieCycle o.die - cmd.since).toNat → s.collWaits cmd = true →
        s.arriving id cmd = false → Completes s id o (exec (.peerTimeout id) s) (fun v => v / 2 ^ 28 = 10)
          (fun t => t.dram = s.dram ∧ t.msc = s.msc)))

/-- R304, R310 to R314: an array accumulates the operation at the head of its half, which then retires; a second
checksum mismatch at execution grade 1 or above poisons the half; MZERO clears its half; the reader at the head of a
half's queue proceeds. The model's choices in it: log 47. -/
def Obligations.MatrixSteps : Prop :=
  (∀ (s : State) (id : Nat) (o : Op), TabOps.find? s.ops id = some o → s.keepsTiles o.team = true →
    (∀ m u, o.body = .mma m → m.follower = none → TabOps.find? s.teams o.team = some u →
      m.half.toNat < u.tiles.length →
      let h := u.tiles.getD m.half.toNat (Tile.start 0)
      let half := fun (t : State) (p : Tile → Prop) => TeamIs t o.team fun v => ∃ x, v.tiles[m.half.toNat]? = some x ∧ p x
      (m.executed = false → (s.tileQueue o.team m.half).head? = some (.op id) → s.arrayTurn id o m = true →
        NextWith (exec (.matrixOpExecute id) s) fun t => t.dram = s.dram ∧ t.msc = s.msc
          ∧ TabOps.find? t.ops id = some { o with life := .running, body := .mma { m with executed := true } }
          ∧ half t fun x => x.tag = Grade.min m.tag h.tag ∧ x.poison = h.poison
            ∧ ∀ e < 8192, x.get e = m.element (e / 128) (e % 128) (h.get e))
      ∧ (m.executed = true →
        (NextWith (exec (.matrixOpRetire id 0) s) fun t => TabOps.find? t.ops id = none
          ∧ half t fun x => x = { h with queue := h.queue.filter (· != .op id) })
        ∧ (∀ n g, 2 ≤ n → o.eg ≠ 0 → TabOps.find? s.grids o.grid = some g →
          NextWith (exec (.matrixOpRetire id n) s) fun t => TabOps.find? t.ops id = none ∧ half t fun x => x.poison = true)))
    ∧ (∀ k u, o.body = .mzero k → TabOps.find? s.teams o.team = some u → k.toNat < u.tiles.length →
      (s.tileQueue o.team k).head? = some (.op id) →
      NextWith (exec (.mzeroExecute id) s) fun t => TabOps.find? t.ops id = none ∧ TeamIs t o.team fun v =>
        ∃ x, v.tiles[k.toNat]? = some x ∧ x.vals = [] ∧ x.tag = o.eg ∧ x.poison = false))
  ∧ (∀ (s : State) (tid wid fid p : Nat) (k j : BitVec 6) (w : Wave) (f : Fragment),
    (s.tileQueue tid k).head? = some (.reader wid fid) → TabOps.find? s.waves wid = some w → w.frag? fid = some f →
    f.park = .tile j p → NextWith (exec (.tileInterlockRelease tid k) s) fun t =>
      WaveIs t wid fun v => v.frag? fid = some { f with park := .tileReady j p })

/-! ### Traps and the resident kernel -/

/-- R95, R341, R343 to R347, R349, R350: TRAP and BRK raise their causes with their codes; TFENCE those of the flags set
and enabled, or goes on; a scalar instruction that names a register its wave lacks raises BUDGET, and one whose named
register is pending waits. A delivery, a wait for the handler, or the grid's stop follows. The model's choice in it: the handler is
entered at TVEC with bit 0 cleared (log 65). -/
def Obligations.TrapsTaken : Prop :=
  ∀ (s : State) (c : Ctx) (k : BitVec 10) (d a b : SReg) (i : BitVec 13) (n : BitVec 6), s.ctx? = some c →
    let e := c.w.aflg.extractLsb' 0 6 &&& c.w.aflg.extractLsb' 8 6
    let poison := poisonOf (c.w.vregs.take c.w.nv) &&& c.f.lanes
    Traps s c (exec (.trap k) s) (2 ^ 26) (k.zeroExtend 64)
    ∧ (c.g.debugged = false → Traps s c (exec (.brk k) s) (2 ^ 27) (k.zeroExtend 64))
    ∧ (c.g.debugged = true → exec (.brk k) s = .next (s.setWave c.wid { c.w.closed with
        cause := c.w.cause ||| 2 ^ 27
        frags := c.w.frags.set c.fid (some { c.f with
          park := .debugger (k.zeroExtend 64)
          plen := c.ilen
          since := (s.core (c.w.die * 48 + c.w.core)).cycle }) }))
    ∧ (poison = 0 → (e ≠ 0 → Traps s c (exec .tfence s) (e.zeroExtend 64 <<< 32) 0)
        ∧ (e = 0 → LeavesWave s c (exec .tfence s) c.w.closed c.following))
    ∧ (poison ≠ 0 → ∃ r : State, r.waves = s.waves ∧ r.grids = s.grids ∧ r.cores = s.cores
        ∧ Traps r c (exec .tfence s) (2 ^ 10 ||| (e.zeroExtend 64 <<< 32)) 0)
    ∧ ∀ p ∈ ([(.sadd d a b, [d, a, b]), (.ssub d a b, [d, a, b]), (.smul d a b, [d, a, b]),
        (.smulhz d a b, [d, a, b]), (.smin d a b, [d, a, b]), (.smaxz d a b, [d, a, b]), (.ssel d a b, [d, a, b]),
        (.sbfi d a b, [d, a, b]), (.spopc d a, [d, a]), (.saddi d a i, [d, a]), (.sshli d a n, [d, a]),
        (.scmp a b, [a, b]), (.scmpi a i, [a]), (.jmpr a, [a]), (.ret a, [a]), (.mpopc d, [d]), (.evpoll d, [d]),
        (.evclr a, [a])] : List (Instr × List SReg)),
      let regs := p.2.map BitVec.toNat
      (c.w.budget regs [] = false → Traps s c (exec p.1 s) 4 0)
      ∧ (c.w.budget regs [] = true → c.w.pendingAny regs = true →
          exec p.1 s = .next (s.setWave c.wid { c.w with
            gst := c.w.gstNow
            egNext := none
            frags := c.w.frags.set c.fid (some { c.f with
              park := .score regs
              plen := c.ilen
              since := (s.core (c.w.die * 48 + c.w.core)).cycle }) }))

/-- R268, R344, R346, R347: TRET in the handler gives back PC, made even, and MASK, and leaves the handler; the fragment
that has waited longest enters it then; outside the handler it raises ILLOP. CAUSECLR clears one cause. The model's choice
in it: the handler is entered at TVEC with bit 0 cleared (log 65). -/
def Obligations.TrapReturns : Prop :=
  ∀ (s : State) (c : Ctx) (b : BitVec 6), s.ctx? = some c →
    let back : Fragment := { c.f.moved (c.w.tpc &&& ~~~1) with mask := c.w.tmask &&& c.f.lanes }
    let w : Wave := { c.w.closed with
      inh := none
      frags := c.w.frags.set c.fid (some back) }
    (c.w.inh = some c.fid → (∀ i f x y, c.w.frag? i = some f → i ≠ c.fid → f.park ≠ .trapWait x y) →
      exec .tret s = .next (s.setWave c.wid w))
    ∧ (∀ i f x y, c.w.inh = some c.fid → i ≠ c.fid → c.w.frag? i = some f → f.park = .trapWait x y →
        (∀ j h, j ≠ c.fid → j ≠ i → c.w.frag? j = some h → (∃ u v, h.park = .trapWait u v) →
          (h.since - f.since).msb = false ∧ (f.since = h.since → i < j)) → c.g.packet.tvec ≠ 0 →
        exec .tret s = .next (s.setWave c.wid { w with
          tpc := f.pc
          tmask := f.mask
          ilen := BitVec.ofNat 4 f.plen
          tinfo := if x.getLsbD 10 then c.w.origin.getD 0 else y
          inh := some i
          frags := (c.w.frags.set c.fid (some back)).set i (some (f.moved (c.g.packet.tvec &&& ~~~1))) }))
    ∧ (c.w.inh ≠ some c.fid → Traps s c (exec .tret s) 1 0)
    ∧ LeavesWave s c (exec (.causeclr b) s) { c.w.closed with
        cause := c.w.cause &&& ~~~BitVec.ofNat 64 (2 ^ b.toNat)
        origin := if b = 10 then none else c.w.origin } c.following

/-- R266, R343, R348, R349: SYSC hands the kernel its code, its active lanes without poison and their arguments, and
waits when it is synchronous; the completion writes each served lane's result to V2:V3, tagged EG: the module's clock
for code 7, −38 for an unknown code; a call of a replay gives what is logged and serves nothing; a call that its entry of
the Retrace log has waited for may bring that entry into the ring. A page fault that the kernel resolves lets the
instruction execute again, another one is delivered; a debugger resumes a fragment where it says. The model's choices in it:
log 9 (the clause of a saved wave: each of its fragments' waits counts from one cycle earlier, so that the one that begins
to wait then is the youngest), log 13 and log 73 (a pair under a partial MASK), log 26, log 41, log 62 (replays and the ring),
log 65 (TVEC with bit 0 cleared). -/
def Obligations.KernelAnswers : Prop :=
  (∀ (s : State) (c : Ctx) (k : BitVec 10), Ready s c [1, 2] [2, 3, 4, 5, 6, 7, 8, 9] → (c.w.s 1).toNat ≤ 1 →
    let lanes := c.f.mask &&& ~~~poisonOf ([2, 3, 4, 5, 6, 7, 8, 9].map c.w.v)
    let args := ((List.range c.w.width).filter (fun l => lanes.getLsbD l)).map (fun l =>
      [2, 4, 6, 8].map (fun r => (c.w.v (r + 1)).lane l ++ (c.w.v r).lane l))
    NextWith (exec (.sysc k) s) fun t =>
      (∃ q, TabOps.find? t.calls s.opNext = some q ∧ (c.g.replay = none → q.logged = none ∧ q.shadow = none)
        ∧ ({ q with
          nth := 0
          logged := none
          shadow := none } : Call) =
        { wave := c.wid, frag := c.fid, code := k, lanes := lanes, args := args, sync := decide (c.w.s 1 = 0),
          area := c.w.s 2, die := c.w.die, width := c.w.width, vd := c.g.vd, grid := c.w.grid, team := c.t.index,
          idx := c.w.idx, fragLanes := c.f.lanes })
      ∧ TabOps.find? t.waves c.wid = some
          (if c.w.s 1 = 0 then c.w.closed.parked s c (.sysc s.opNext) else c.w.closed.moved c c.following)
      ∧ t.opNext = s.opNext + 1 ∧ MemoryFrame s t (fun _ => False))
  ∧ (∀ (s : State) (id : Nat) (q : Call) (xs : List Word) (ws : List (Nat × Byte)) (w : Wave) (f : Fragment) (u : Team)
      (g : Grid), TabOps.find? s.calls id = some q → TabOps.find? s.waves q.wave = some w →
    w.frag? q.frag = some f → f.park = .sysc id → TabOps.find? s.teams w.team = some u →
    TabOps.find? s.grids w.grid = some g → q.sync = true →
    q.width = w.width →
    let result := fun (l : Nat) => if 7 < q.code.toNat then BitVec.ofInt 64 (-38)
      else match q.logged with
        | some rs => rs.getD ((List.range l).filter (fun j => q.lanes.getLsbD j)).length 0
        | none => if q.code = 7 then s.clock
          else xs.getD ((List.range l).filter (fun j => q.lanes.getLsbD j)).length 0
    NextWith (exec (.syscCompletion id xs ws) s) fun t =>
      TabOps.find? t.calls id = none
      ∧ TabOps.find? t.waves q.wave = some { w with
          vregs := vregsLoaded w q.lanes 2 true
            (fun l => ((result l).extractLsb' 0 32, (result l).extractLsb' 32 32)) w.eg 0
          frags := w.frags.set q.frag (some (f.moved (f.pc + BitVec.ofNat 64 f.plen))) }
      ∧ (∀ j, j ≠ q.wave → TabOps.find? t.waves j = TabOps.find? s.waves j)
      ∧ MemoryFrame s t (fun pa => (q.logged = none ∧ q.code.toNat ≤ 7 ∧ ∃ b, (pa, b) ∈ ws)
          ∨ (s.retrace.rtbase ≤ pa ∧ pa < s.retrace.rtbase + Config.logRing)))
  ∧ (∀ (s : State) (wid fid : Nat) (w : Wave) (f : Fragment) (x y : Word), TabOps.find? s.waves wid = some w →
    w.frag? fid = some f → f.park = .pageFault x y →
    exec (.pageFaultResolution wid fid true) s = .next (s.setWave wid { w with
        cause := w.cause &&& ~~~(x &&& 24)
        frags := w.frags.set fid (some { f with
          park := .ready
          plen := 0
          waited := [] }) })
    ∧ ∀ g, TabOps.find? s.grids w.grid = some g → w.inh = none → g.packet.tvec ≠ 0 →
      let v := if w.life = .saved then { w with frags := w.frags.map (Option.map fun h => { h with since := h.since - 1 }) }
        else w
      exec (.pageFaultResolution wid fid false) s = .next (s.setWave wid { v.closed with
        tpc := f.pc
        tmask := f.mask
        ilen := BitVec.ofNat 4 f.plen
        tinfo := if x.getLsbD 10 then w.origin.getD 0 else y
        inh := some fid
        frags := v.frags.set fid (some { f.moved (g.packet.tvec &&& ~~~1) with
          since := if w.life = .saved then f.since - 1 else f.since }) }))
  ∧ (∀ (s : State) (wid fid : Nat) (w : Wave) (f : Fragment) (x pc : Word) (m : LaneMask),
    TabOps.find? s.waves wid = some w → w.frag? fid = some f → f.park = .debugger x →
    exec (.debuggerResume wid fid pc m) s = .next (s.setWave wid { s.closedFor wid fid w with
      frags := w.frags.set fid (some { f.moved (pc &&& ~~~1) with mask := m &&& f.lanes }) }))

/-! ### Compass -/

/-- A run after an instruction that goes on at a position: one more step; the loop end begins the next iteration or ends
the loop; past its last instruction the run ends with NONE (R392, R393). -/
def Goes (s : State) (r : PolicyRun) (o : Out State) (regs : List Word) (pos : Nat) : Prop :=
  let r' : PolicyRun := { r with
    steps := r.steps + 1
    regs := regs
    pos := match r.loop with
      | some (first, last, left) => if pos = last ∧ left ≠ 0 then first else pos
      | none => pos
    loop := match r.loop with
      | some (first, last, left) => if pos ≠ last then r.loop else if left = 0 then none else some (first, last, left - 1)
      | none => none }
  (r'.pos < r.program.length → o = .next { s with compass := some r' })
  ∧ (r.program.length ≤ r'.pos → s.polCalls = [] → ¬ (∃ g, r.event = .sliceEnd g) → o = .next { s with compass := none })

/-- R352, R392 to R394: the Compass instructions. C0 reads 0 and discards writes; arithmetic is modulo 2^64,
comparisons are signed; a branch goes k ahead or to the next instruction; LOOPN runs the next L instructions n + 1
times for its field n; LDQ reads a candidate, LDE the event, LDS and STS the policy's persistent words. RETN and RETQ
end the run: a pick's queue is served next; a slice end with another queue or NONE drains the grid, with its own queue
it goes on; a queue outside the candidates, the grid's own too, counts as NONE and as a policy fault, and so does a
4,097th step. The model's choices in it: log 7. -/
def Obligations.PolicyRuns : Prop :=
  (∀ (s : State) (r : PolicyRun) (d a b : BitVec 4) (i : BitVec 14) (n : BitVec 6) (l : BitVec 8),
    s.compass = some r → r.steps < 4096 →
    let x := fun (j : BitVec 4) => if j = 0 then 0 else r.regs.getD j.toNat 0
    let set := fun (v : Word) => if d = 0 then r.regs else r.regs.set d.toNat v
    let y := i.signExtend 64
    let words := ((TabOps.find? s.policies (r.vd * 256 + r.pol)).map Policy.persist).getD []
    (∀ p ∈ ([(.cLdi d i, y), (.cLui d i, y * 2 ^ 14), (.cAdd d a b, x a + x b), (.cSub d a b, x a - x b),
        (.cMul d a b, x a * x b), (.cAnd d a b, x a &&& x b), (.cOr d a b, x a ||| x b), (.cXor d a b, x a ^^^ x b),
        (.cShl d a b, x a <<< ((x b).toNat % 64)), (.cShr d a b, x a >>> ((x b).toNat % 64)),
        (.cMin d a b, if (x a).toInt ≤ (x b).toInt then x a else x b),
        (.cMax d a b, if (x a).toInt ≤ (x b).toInt then x b else x a),
        (.cSlt d a b, if (x a).toInt < (x b).toInt then 1 else 0), (.cAddi d a i, x a + y),
        (.cSel d a b, if x d ≠ 0 then x a else x b), (.cLdq d a i, (r.view.getD (x a).toNat []).getD i.toNat 0),
        (.cLde d i, r.evf.getD i.toNat 0), (.cLds d i, words.getD i.toNat 0)] : List (Instr × Word)),
      Goes s r (exec p.1 s) (set p.2) (r.pos + 1))
    ∧ Goes s r (exec .cNop s) r.regs (r.pos + 1)
    ∧ (∀ k : Nat, i.toInt = k → ∀ p ∈ ([(.cBeq a b i, decide (x a = x b)), (.cBne a b i, decide (x a ≠ x b)),
        (.cBlt a b i, decide ((x a).toInt < (x b).toInt)), (.cBge a b i, decide ((x b).toInt ≤ (x a).toInt)),
        (.cJmp i, true)] : List (Instr × Bool)),
      Goes s r (exec p.1 s) r.regs (r.pos + if p.2 then k else 1))
    ∧ (l ≠ 0 → r.pos + 1 < r.program.length → exec (.cLoopn n l) s = .next { s with compass := some { r with
        steps := r.steps + 1
        pos := r.pos + 1
        loop := some (r.pos + 1, r.pos + 1 + l.toNat, n.toNat) } })
    ∧ (∀ p, TabOps.find? s.policies (r.vd * 256 + r.pol) = some p → r.loop = none → r.pos + 1 < r.program.length →
      NextWith (exec (.cSts a i) s) fun t =>
        TabOps.find? t.policies (r.vd * 256 + r.pol) = some { p with persist := p.persist.set i.toNat (x a) }
        ∧ (∀ j, j ≠ r.vd * 256 + r.pol → TabOps.find? t.policies j = TabOps.find? s.policies j)
        ∧ t.compass = some { r with
            steps := r.steps + 1
            pos := r.pos + 1 } ∧ t.queues = s.queues ∧ t.grids = s.grids)
)
  ∧ ((∀ (s : State) (r : PolicyRun) (a : BitVec 4), s.compass = some r → r.steps < 4096 → s.polCalls = [] →
    let q := if a = 0 then 0 else r.regs.getD a.toNat 0
    let shown := r.view.any (fun c => c.headD 0 == q)
    let drained := fun (t : State) (g : Nat) => (∀ x, TabOps.find? s.grids g = some x →
        TabOps.find? t.grids g = some { x with drain := true })
      ∧ ∀ j w, TabOps.find? s.waves j = some w → TabOps.find? t.waves j = some (if w.grid = g then { w with drain := true } else w)
    let faults := fun (t : State) (n : Nat) => ∀ v, TabOps.find? s.vds r.vd = some v →
      TabOps.find? t.vds r.vd = some { v with faults := v.faults + n }
    (r.event = .enqueue ∨ (∃ d, r.event = .pick d) → exec .cRetn s = .next { s with compass := none })
    ∧ (r.event = .enqueue → exec (.cRetq a) s = .next { s with compass := none })
    ∧ (∀ d, r.event = .pick d → NextWith (exec (.cRetq a) s) fun t => t.compass = none ∧ t.grids = s.grids
      ∧ faults t (if shown then 0 else 1)
      ∧ ∀ j x, TabOps.find? s.queues j = some x →
          TabOps.find? t.queues j = some (if shown ∧ j = q.toNat then { x with picked := true } else x))
    ∧ (∀ g, r.event = .sliceEnd g →
      (NextWith (exec .cRetn s) fun t => t.compass = none ∧ t.queues = s.queues ∧ faults t 0 ∧ drained t g)
      ∧ (q = r.evf.getD 2 0 → shown = true → exec (.cRetq a) s = .next { s with compass := none })
      ∧ (q ≠ r.evf.getD 2 0 ∨ shown = false → NextWith (exec (.cRetq a) s) fun t => t.compass = none ∧ t.queues = s.queues
        ∧ faults t (if shown then 0 else 1) ∧ drained t g)))
  ∧ (∀ (s : State) (r : PolicyRun) (v : Vd), s.compass = some r → 4096 ≤ r.steps → s.polCalls = [] →
    TabOps.find? s.vds r.vd = some v → (r.event = .enqueue ∨ ∃ d, r.event = .pick d) →
    exec .cNop s = .next { s with
      compass := none
      vds := TabOps.put s.vds r.vd { v with faults := v.faults + 1 } })
)
/-! ### Memory behind the cores, the ports and the outside world -/

/-- A channel stands as l afterwards, nothing else is changed but its class's stop signals at the receiving edges of its
path, each raised above 48 flits buffered there and lowered below 32 (R363). -/
def ChannelIs (s : State) (k : Nat) (o : Out State) (l : Link) : Prop :=
  NextWith o fun t =>
    ({ t with
      links := s.links
      stops := s.stops } : State) = s
    ∧ t.links = TabOps.put s.links k l
    ∧ (∀ h < l.hops,
        let e := l.edge h
        (48 < t.buffered e → e ∈ t.stops) ∧ (t.buffered e < 32 → e ∉ t.stops)
        ∧ (32 ≤ t.buffered e → t.buffered e ≤ 48 → (e ∈ t.stops ↔ e ∈ s.stops)))
    ∧ ∀ e, (∀ h < l.hops, l.edge h ≠ e) → (e ∈ t.stops ↔ e ∈ s.stops)

/-- R196, R198, R199, R203 to R205, R225, R363: a promotion request leaves at home the dirty bytes of the owner's L1, all
its slices where it is fused, that its scope covers; a walk that reaches a leaf is kept in every TLB on its way, one that reaches none in no TLB; a
controller serves the oldest request whose device has its tokens, else the oldest; a pass fades the windows that were not
hit and frees those that reach 0; a message at the last edge of its path is taken in order or NACKed, a duplicate is
discarded, and a NACKed one goes again after 64 cycles, where the first edge's 96 flits hold it. These clauses hold choices
of the model: what the home knows of a page after a walk (log 10), where a leaf's page begins (log 77), what the TLBs keep (log 29), which unit sends a message
over a channel, and its path (log 54), the empty bucket (log 74), log 57. -/
def Obligations.MemorySystem : Prop :=
  (∀ (s : State) (line q : Nat) (x : BitVec 3), TabOps.find? s.owners line = some q →
    NextWith (exec (.promotionRequest line x) s) fun t => t.waves = s.waves ∧ MemoryFrame s t (fun _ => False)
      ∧ (∀ key ∈ s.fusedWith q, ((s.core key).l1.map Prod.fst).Nodup → ∀ j l i, s.l1 key j = some l →
          l.sc.toNat ≤ x.toNat → i < 128 → l.dirty.getLsbD i = true → s.lineDown j = false →
          ¬ CodeAt s t (j * 128 + i) → OnlyHere s key (j * 128 + i) → t.homeByte (j * 128 + i) = l.data.getD i 0))
  ∧ (∀ (s : State) (vd die : Nat) (va : Word) (acc : Access), s.cached die vd va = none →
    (∀ l, s.walkFor die vd va = some l → NextWith (exec (.pageWalk vd die va acc) s) fun t =>
      (∀ n ∈ tlbsOf die, ({ tlb := n.1, vd := vd, page := va.toNat / l.size, size := l.size, leaf := l.entry } : TlbEntry)
        ∈ t.tlb)
      ∧ (∃ c, TabOps.find? t.codes (l.pa va / 4096) = some c ∧ c.vd = vd ∧ c.owner = l.owner ∧ c.grade = l.grade)
      ∧ t.waves = s.waves ∧ (s.Sound → t.dram = s.dram ∧ t.msc = s.msc))
    ∧ (s.walkFor die vd va = none → NextWith (exec (.pageWalk vd die va acc) s) fun t => t.tlb = s.tlb ∧ t.codes = s.codes
      ∧ t.waves = s.waves ∧ MemoryFrame s t (fun _ => False)))
  ∧ (∀ (s : State) (die i : Nat) (q : MemReq) (qs : List MemReq), TabOps.find? s.requests die = some qs →
    s.replaying = false → qs[i]? = some q →
    let tokens := fun (r : MemReq) => TabOps.get 0 s.buckets (die * 16 + r.vd)
    let cost := fun (r : MemReq) => (r.size + 15) / 16
    let enough := fun (r : MemReq) => cost r ≤ tokens r
    (enough q ∧ (∀ j r, j < i → qs[j]? = some r → ¬ enough r)) ∨ (i = 0 ∧ ∀ r ∈ qs, ¬ enough r) →
    NextWith (exec (.memoryRequestService die) s) fun t =>
      (∃ more : List MemReq, TabOps.find? t.requests die = some (qs.eraseIdx i ++ more)
        ∧ (∀ r ∈ more, r.alloc = false) ∧ (q.alloc = false ∨ TabOps.find? s.msc q.line ≠ none → more = []))
      ∧ TabOps.find? t.buckets (die * 16 + q.vd) = some (tokens q - cost q)
      ∧ t.waves = s.waves ∧ MemoryFrame s t (fun _ => False)
      ∧ (q.alloc = true → s.lineBad q.line (s.lineGrade q.line) = false → q.off + q.size ≤ 128 → TabOps.find? s.msc q.line ≠ none →
          t.mscHolds q.line q.off q.size = true))
  ∧ (∀ (s : State) (die : Nat), exec (.fadePass die) s = .next { s with pins := s.pins.filterMap (fun p =>
      if p.die = die ∧ p.hit = false ∧ p.count ≤ 1 then none
      else some (if p.die ≠ die then p else if p.hit then { p with count := p.fade, hit := false }
        else { p with count := p.count - 1 })) })
  ∧ (∀ (s : State) (k : Nat) (m : Message) (l : Link) (rest : List Message), TabOps.find? s.links k = some l →
    (l.wire = m :: rest → m.hop + 1 < l.hops → ∀ b, exec (.d2dMessageReceive k b) s = .next s)
    ∧ (l.wire = m :: rest → l.hops ≤ m.hop + 1 →
      (m.seq ≤ l.seen → ∀ b, ChannelIs s k (exec (.d2dMessageReceive k b) s) { l with wire := rest })
      ∧ (m.seq = l.seen + 1 → ChannelIs s k (exec (.d2dMessageReceive k true) s) { l with
          wire := rest
          seen := m.seq })
      ∧ (∀ b, l.seen < m.seq → m.seq ≠ l.seen + 1 ∨ b = false → ChannelIs s k (exec (.d2dMessageReceive k b) s) { l with
          wire := rest
          nacked := l.nacked ++ [(m, s.linkCycle l.src)] }))
    ∧ (∀ since more, l.nacked = (m, since) :: more → l.edge 0 ∉ s.stops → s.buffered (l.edge 0) + m.flits ≤ 96 →
        since + 64 ≤ s.linkCycle l.src →
        ChannelIs s k (exec (.d2dRetry k) s) { l with
          nacked := more
          wire := l.wire ++ [{ m with hop := 0 }] }))

/-- The ports serve: Dawn runs, is not in recovery, and has unlocked stage 2 (R397, R399; log 70). -/
def PortsServe (s : State) : Prop := s.dawn.running = true ∧ s.dawn.recovery = false ∧ 2 ≤ s.dawn.stage

/-- A write from outside the module: no wave is changed, the bytes stand at their homes but where the home keeps a code,
and every other byte is as MemoryFrame says. -/
def OutsideStore (s : State) (o : Out State) (ws : List (Nat × List Byte)) : Prop :=
  NextWith o fun t => t.waves = s.waves ∧ MemoryFrame s t (fun a => storedAt ws a ≠ none)
    ∧ ∀ a b, storedAt ws a = some b → ¬ CodeAt s t a → t.homeByte a = b

/-- R200, R341, R351, R377 to R380, R397, R399, R402: a CXL port's failure makes its window unavailable and raises its
cause at the load that waits for it, a timeout's only once the load has waited for the port's; enumeration and
remapping make a window available with its size. While the ports serve, inside the windows registered for it, an
outside read returns the bytes at their homes, a write stores its bytes, and a remote atomic returns the old word and
stores the new one; a SEND reaches the kernel. MSTAT of the physical function reads as the module's state, in recovery
too, and then nothing else answers. The model's choices in it: log 53, log 55 (a timeout counted in core cycles), log 65
(TVEC with bit 0 cleared), log 70. -/
def Obligations.OutsideWorld : Prop :=
  (∀ (s : State) (port : Nat) (p : CxlPort), s.cxl[port]? = some p → TabOps.rises s.waves = true →
    let limit := fun (w : Wave) => p.timeout * (if (s.die w.die).service = .twilight then 875000 else 1750000)
    let holds := fun (least : Wave → Nat) (i k : Nat) (va : Word) => ∃ w f, TabOps.find? s.waves i = some w
      ∧ w.frag? k = some f ∧ f.park = .cxl port va
      ∧ least w ≤ ((s.core (w.die * 48 + w.core)).cycle - f.since).toNat
    ∀ e ∈ ([(.cxlLinkDown port, 11, { p with linkUp := false, available := false }, fun _ => 0),
        (.cxlCompletionTimeout port, 12, { p with available := false }, limit)] :
        List (Instr × Nat × CxlPort × (Wave → Nat))),
      NextWith (exec e.1 s) fun t => t.cxl = s.cxl.set port e.2.2.1 ∧ t.dram = s.dram ∧ t.msc = s.msc
        ∧ ((∀ i k va, ¬ holds e.2.2.2 i k va) → t.waves = s.waves)
        ∧ (∀ i k va w f g, TabOps.find? s.waves i = some w → w.frag? k = some f → f.park = .cxl port va →
            e.2.2.2 w ≤ ((s.core (w.die * 48 + w.core)).cycle - f.since).toNat →
            (∀ i' k' va', holds e.2.2.2 i' k' va' → i' = i ∧ k' = k) → w.inh = none → TabOps.find? s.grids w.grid = some g →
            g.packet.tvec ≠ 0 → t.waves = TabOps.put s.waves i { w.closed with
              cause := w.cause ||| BitVec.ofNat 64 (2 ^ e.2.1)
              tpc := f.pc
              tmask := f.mask
              ilen := BitVec.ofNat 4 f.plen
              tinfo := va
              inh := some k
              frags := w.frags.set k (some (f.moved (g.packet.tvec &&& ~~~1))) }))
  ∧ (∀ (s : State) (port size : Nat) (p : CxlPort), s.cxl[port]? = some p → p.fenced = false →
    size % 2 ^ 28 = 0 → 2 ^ 28 ≤ size → size ≤ 2 ^ 40 →
    let put := fun (q : CxlPort) => ({ s with cxl := s.cxl.set port q } : State)
    (p.enumerated = false → (PortsServe s → exec (.cxlPortEnumeration port size) s =
        .next (put { p with enumerated := true, size := size, available := true }))
      ∧ (¬ PortsServe s → exec (.cxlPortEnumeration port size) s = .next s))
    ∧ (p.enumerated = true → p.available = false → exec (.cxlWindowRemap port size) s =
      .next (put { p with size := size, linkUp := true, available := true })))
  ∧ (∀ (s : State) (fn off n : Nat) (bs : List Byte) (pa : Nat → Nat),
    (s.dawn.running = true → NextWith (exec (.hostAccess 0 ⟨.bar0, 0xF000⟩ (.read 8)) s) fun t =>
      let m : Word := BitVec.ofNat 64 (leValue t.hostData)
      t.waves = s.waves ∧ t.dram = s.dram ∧ t.msc = s.msc ∧ t.hostData.length = 8
      ∧ m.toNat / 2 ^ 60 = (if s.dawn.recovery = true then 15 else s.dawn.stage % 16)
      ∧ ∀ d < 24, m.getLsbD (24 + d) = decide ((s.die d).service = .full)
        ∧ m.getLsbD d = decide ((s.die d).service = .fenced))
    ∧ (bs.length = 4 → exec (.hostAccess fn ⟨.bar0, off⟩ (.write bs)) s
        = exec (.doorbellWrite ⟨.function fn, off⟩ (BitVec.ofNat 32 (leValue bs))) s)
    ∧ (¬ PortsServe s → exec (.hostAccess fn ⟨.bar2, off⟩ (.read n)) s = .next s
      ∧ exec (.hostAccess fn ⟨.bar2, off⟩ (.write bs)) s = .next s
      ∧ (∀ x, exec (.doorbellWrite ⟨.function fn, off⟩ x) s = .next s)
      ∧ (fn ≠ 0 ∨ off + n ≤ 0xF000 ∨ 0xF008 ≤ off → 0 < n → exec (.hostAccess fn ⟨.bar0, off⟩ (.read n)) s = .next s))
    ∧ (PortsServe s → fn < 17 →
      let put := fun (len : Nat) => ∀ i < len, s.aperture fn (off + i) = some (pa i) ∧ s.homeState (pa i) = .ok
      let clean := ∀ i < n, s.lineBad (pa i / 128) (s.lineGrade (pa i / 128)) = false
        ∧ (s.transit.contains (pa i / 128) = false ∨ s.lineGrade (pa i / 128) = 0)
      (put n → clean → NextWith (exec (.hostAccess fn ⟨.bar2, off⟩ (.read n)) s) fun t => t.waves = s.waves
        ∧ t.dram = s.dram ∧ t.msc = s.msc ∧ t.hostData = (List.range n).map (fun i => s.homeByte (pa i)))
      ∧ (put bs.length → OutsideStore s (exec (.hostAccess fn ⟨.bar2, off⟩ (.write bs)) s)
          ((List.range bs.length).map (fun i => (pa i, [bs.getD i 0]))))
      ∧ (∀ i < n, s.aperture fn (off + i) = none → exec (.hostAccess fn ⟨.bar2, off⟩ (.read n)) s = .next s)
      ∧ (∀ i < bs.length, s.aperture fn (off + i) = none → exec (.hostAccess fn ⟨.bar2, off⟩ (.write bs)) s = .next s)))
  ∧ (∀ (s : State) (port pa n k : Nat) (bs : List Byte) (u v : Word) (req : RoceRequest),
    let up := PortsServe s ∧ port < 8 ∧ port ∉ s.dawn.fencedEth
    let inside := fun (len : Nat) => ∀ i < len,
      (∃ w ∈ s.windows, w.fn = 100 ∧ w.index = (pa + i) / 2 ^ 21) ∧ s.homeState (pa + i) = .ok
    let clean := fun (len : Nat) => ∀ i < len, s.lineBad ((pa + i) / 128) (s.lineGrade ((pa + i) / 128)) = false
      ∧ (s.transit.contains ((pa + i) / 128) = false ∨ s.lineGrade ((pa + i) / 128) = 0)
    (¬ up → exec (.roceRequest ⟨port, pa⟩ req) s = .next s)
    ∧ (up → (exec (.roceRequest ⟨port, pa⟩ (.send k bs)) s = .next { s with inbox := s.inbox ++ [(k, bs)] })
      ∧ (inside n → clean n → NextWith (exec (.roceRequest ⟨port, pa⟩ (.read n)) s) fun t => t.waves = s.waves
          ∧ t.dram = s.dram ∧ t.msc = s.msc ∧ t.hostData = s.homeBytes pa n)
      ∧ (¬ inside n → exec (.roceRequest ⟨port, pa⟩ (.read n)) s = .next s)
      ∧ (inside bs.length → OutsideStore s (exec (.roceRequest ⟨port, pa⟩ (.write bs)) s) [(pa, bs)])
      ∧ (¬ inside bs.length → exec (.roceRequest ⟨port, pa⟩ (.write bs)) s = .next s)
      ∧ (inside 8 → pa % 8 = 0 → clean 8 →
        ∀ r ∈ ([(.fetchAdd u, s.homeWord pa + u), (.cas u v, if s.homeWord pa = u then v else s.homeWord pa)] :
            List (RoceRequest × Word)),
          OutsideStore s (exec (.roceRequest ⟨port, pa⟩ r.1) s) [(pa, leBytes r.2.toNat 8)]
          ∧ NextWith (exec (.roceRequest ⟨port, pa⟩ r.1) s) fun t => t.hostData = s.homeBytes pa 8)))


/-! ### Queues -/

/-- The next entry of a queue's ring may start: the queue is active, nothing of it runs, its policy has picked it where
one is loaded, and the entry is well formed (R384 to R387, R394). -/
structure Heads (s : State) (q : Nat) (x : Queue) (ws : List Word) (type : Nat) : Prop where
  queue : TabOps.find? s.queues q = some x
  idle : x.state = 1 ∧ x.closing = false ∧ x.next ≠ x.tail ∧ x.running = []
  policy : TabOps.find? s.policies (x.vd * 256 + x.policy) = none ∨ x.picked = true
  entry : s.ringEntry x x.next = some ws
  legal : entryOk ws = true ∧ (ws.getD 0 0).toNat / 2 ^ 56 = type

/-- The outcome of a command that has started and runs on. -/
def Begins (o : Out State) (q : Nat) (x : Queue) (r : Running) (p : State → Prop) : Prop :=
  NextWith o fun t => TabOps.find? t.queues q = some { x with
    next := x.next + 1
    picked := false
    running := [r] } ∧ p t

/-- The outcome of a command that starts and completes at once: HEAD passes it. -/
def Finishes (s : State) (o : Out State) (q : Nat) (x : Queue) (p : State → Prop) : Prop :=
  NextWith o fun t => t.waves = s.waves ∧ t.ops = s.ops ∧ t.grids = s.grids
    ∧ TabOps.find? t.queues q = some { x with
        next := x.next + 1
        head := x.head + 1
        picked := false } ∧ p t

/-- The state in which a queue's next entry has been read (R196, R199, R205, R259). -/
def entryRead (s : State) (x : Queue) : State := s.vaReads x.vd (x.entryVa x.next) 64

/-- The outcome of a command that puts its queue in error (R387). -/
def Errs (o : Out State) (q : Nat) (x : Queue) (e : Nat) : Prop :=
  NextWith o fun t => TabOps.find? t.queues q = some { x with
    state := 2
    err := e
    picked := false }

/-- R262, R382, R385 to R387, R389 to R391, R394: a write to the doorbell of a device's queue j, at byte 8j of its page,
after the binds that may apply to the queue, gives TAIL, or an error where it goes back or too
far; LAUNCH gives the dispatcher its grid, capped by GCEIL, COPY and COLL start an operation with execution grade 0,
DEPWAIT waits for its word to reach its value, POST stores its value; a malformed entry is ERR 1, an illegal packet
ERR 2, an address that does not translate ERR 8. A DEPWAIT whose word has not reached its value waits on. The model's choices in it: log 7, log 17, log 18; that device vd's
function is vd + 1 and when the ports serve (log 70). -/
def Obligations.QueueCommands : Prop :=
  (∀ (s : State) (vd j : Nat) (tail : BitVec 32) (n : Node) (x : Queue) (page : DoorbellPage),
    TabOps.find? s.nodes vd = some n → j < n.count → j < 8192 →
    page = .guest vd ∨ (page = .function (vd + 1) ∧ vd < 16 ∧ PortsServe s) →
    let q := n.first + j
    let u := s.bindFirst q
    let o := exec (.doorbellWrite ⟨page, 8 * j⟩ tail) s
    ((∀ i y, TabOps.find? s.queues i = some y → (∀ m a st, Running.bind m a st ∉ y.running)
        ∧ (y.next = y.tail ∨ y.vd ≠ 0)) → u = s)
    ∧ (TabOps.find? u.queues q = some x → (x.state ≠ 1 → o = .next u)
      ∧ (x.state = 1 → (2 ^ 31 ≤ (tail - x.tail).toNat ∨ 2 ^ (x.logn + 4) < (tail - x.head).toNat → Errs o q x 4)
        ∧ ((tail - x.tail).toNat < 2 ^ 31 → (tail - x.head).toNat ≤ 2 ^ (x.logn + 4) →
          NextWith o fun t => t.dram = u.dram ∧ t.msc = u.msc ∧ t.waves = u.waves
            ∧ ∃ y, TabOps.find? t.queues q = some y ∧ { y with stamps := x.stamps } = { x with tail := tail }))))
  ∧ (∀ (s : State) (q : Nat) (x : Queue) (ws : List Word), TabOps.find? s.queues q = some x →
    x.state = 1 ∧ x.closing = false ∧ x.next ≠ x.tail ∧ x.running = [] →
    TabOps.find? s.policies (x.vd * 256 + x.policy) = none ∨ x.picked = true →
    ∀ i ∈ ([.queueLaunch q, .copy q, .coll q, .depwait q, .post q, .vdset q, .bind q, .unbind q, .shoot q, .polload q] :
      List Instr),
    (s.ringEntry x x.next = some ws → entryOk ws = false → Errs (exec i s) q x 1)
    ∧ (s.ringEntry x x.next = none → Errs (exec i s) q x 8))
  ∧ (∀ (s : State) (q : Nat) (x : Queue) (ws ps : List Word), Heads s q x ws 1 →
    (entryRead s x).vaWords x.vd (ws.getD 1 0) 16 = some ps →
    let ok := (ws.getD 1 0).toNat % 64 = 0 ∧ packetLegal ps true = true
    (¬ ok → Errs (exec (.queueLaunch q) s) q x 2)
    ∧ (ok → Begins (exec (.queueLaunch q) s) q x (.launch s.opNext false) fun t =>
        t.opNext = s.opNext + 1 ∧ t.waves = s.waves ∧ MemoryFrame s t (fun _ => False)
        ∧ ∃ g, TabOps.find? t.grids s.opNext = some g ∧ g.packet = Packet.ofWords ps ∧ g.vd = x.vd ∧ g.queue = some q
          ∧ g.launchG = Grade.min (Packet.ofWords ps).grade x.gceil ∧ g.parent = none ∧ g.depth = 0 ∧ g.life = .running
          ∧ g.nextNb = 0 ∧ g.early = none ∧ g.shadow = none))
  ∧ (∀ (s : State) (q : Nat) (x : Queue) (ws : List Word), Heads s q x ws 2 →
    let c? := entryCmd ws ((entryRead s x).vaGrade x.vd (x.entryVa x.next))
    (c? = none → Errs (exec (.copy q) s) q x 1)
    ∧ (∀ c, c? = some c → Begins (exec (.copy q) s) q x (.op s.opNext (ws.getD 1 0)) fun t =>
        TabOps.find? t.ops s.opNext = some
          { body := .copy c, wave := 0, grid := 0, team := 0, die := (ws.getD 2 0).toNat % 32, core := 0, vd := x.vd,
            sd := none, cls := 0, eg := 0, life := .queued, queue := some q, fault := 0,
            issueDie := (ws.getD 2 0).toNat % 32 }))
  ∧ (∀ (s : State) (q die : Nat) (x : Queue) (ws : List Word) (c : CollCmd), Heads s q x ws 3 →
    (∀ e, (entryRead s x).entryColl none q x ws = .error e → Errs (exec (.coll q) s) q x e)
    ∧ ((entryRead s x).entryColl none q x ws = .ok (c, die) → Begins (exec (.coll q) s) q x (.op s.opNext (ws.getD 1 0)) fun t =>
        TabOps.find? t.ops s.opNext = some
          { body := .coll c, wave := 0, grid := 0, team := 0, die := die, core := 0, vd := x.vd, sd := none, cls := 3,
            eg := 0, life := .queued, queue := some q, fault := 0, issueDie := die }))
  ∧ (∀ (s : State) (q pa : Nat) (x : Queue) (ws : List Word) (l : Leaf), Heads s q x ws 4 →
    let s0 := entryRead s x
    s0.translate (24 + x.vd % 2) x.vd (ws.getD 1 0) .load = .ok (l, pa) →
    ((ws.getD 2 0).toNat ≤ (s0.homeWord pa).toNat →
      Finishes s (exec (.depwait q) s) q x fun t => s.logged q = false → MemoryFrame s t (fun _ => False))
    ∧ ((s0.homeWord pa).toNat < (ws.getD 2 0).toNat →
      Begins (exec (.depwait q) s) q x (.depwait (ws.getD 1 0) (ws.getD 2 0)) fun t =>
        (s.logged q = false → MemoryFrame s t (fun _ => False)) ∧ t.waves = s.waves))
  ∧ (∀ (s : State) (q pa : Nat) (x : Queue) (va v : Word) (l : Leaf), TabOps.find? s.queues q = some x →
    x.running = [.depwait va v] → s.translate (24 + x.vd % 2) x.vd va .load = .ok (l, pa) →
    (v.toNat ≤ (s.homeWord pa).toNat → NextWith (exec (.depwaitRecheck q) s) fun t =>
      TabOps.find? t.queues q = some { x with
        head := x.head + 1
        running := [] })
    ∧ ((s.homeWord pa).toNat < v.toNat → NextWith (exec (.depwaitRecheck q) s) fun t => (∃ n, TabOps.find? t.queues q =
        some { x with polled := n }) ∧ t.waves = s.waves ∧ t.grids = s.grids ∧ MemoryFrame s t (fun _ => False)))
  ∧ (∀ (s : State) (q pa : Nat) (x : Queue) (ws : List Word) (l : Leaf), Heads s q x ws 5 →
    let s1 := (entryRead s x).logCommand q x ws [] []
    s1.translate (24 + x.vd % 2) x.vd (ws.getD 1 0) .store = .ok (l, pa) → pa % 8 = 0 →
    let stored := fun (t : State) => MemoryFrame s1 t (fun a => pa ≤ a ∧ a < pa + 8)
      ∧ (s1.Sound → (∀ i < 8, ¬ CodeAt s1 t (pa + i)) → t.homeBytes pa 8 = leBytes (ws.getD 2 0).toNat 8)
    ((ws.getD 0 0).getLsbD 48 = false →
      Finishes s (exec (.post q) s) q x fun t => stored t ∧ t.interrupts = s.interrupts)
    ∧ ((ws.getD 0 0).getLsbD 48 = true →
        let u := (s1.keep (24 + x.vd % 2) x.vd (ws.getD 1 0)).homeStore none (Spot.of 0) pa (leBytes (ws.getD 2 0).toNat 8)
        (∀ k a, u.translate (24 + x.vd % 2) x.vd (x.qcb + 24) .load = .ok (k, a) →
          let vec := (u.homeWord a).toNat % 256
          let named := vec < 64 ∧ ∀ ns, (TabOps.find? s.nodes x.vd).bind Node.guest = some ns → vec ∈ ns
          (named → Finishes s (exec (.post q) s) q x fun t =>
            stored t ∧ t.interrupts = s.interrupts ++ [(x.vd, vec)])
          ∧ (¬ named → NextWith (exec (.post q) s) fun t => stored t ∧ t.interrupts = s.interrupts
            ∧ TabOps.find? t.queues q = some { x with
                state := 2
                err := 1
                next := x.next + 1
                head := x.head + 1
                picked := false }))))

/-- The outcome of a privileged command: its status stands at its address, and HEAD passes it (R388). -/
def Answers (s : State) (o : Out State) (q : Nat) (x : Queue) (pa status : Nat) (p : State → Prop) : Prop :=
  Finishes s o q x fun u =>
    (s.Sound → (∀ i < 4, ¬ CodeAt s u (pa + i)) → u.homeBytes pa 4 = leBytes status 4)
    ∧ MemoryFrame s u (fun a => pa ≤ a ∧ a < pa + 4) ∧ p u

/-- The status address of a bind or unbind of queue v still translates once the control block has been read. -/
def StatusStands (s : State) (q v : Nat) (qcb : Option Word) (va : Word) : Prop :=
  ∀ u, ((s.closeQueue v).started q (.bind v qcb va)).bindDo v qcb = some u →
    ∃ l pa, u.translate 24 0 va .store = .ok (l, pa)

/-- R206, R382, R384, R388, R392, R393: the privileged commands of a queue of device 0. VDSET defines a device from a
legal descriptor, SHOOT drops a device's translations, POLLOAD loads a program that the verifier accepts, with its
persistent words 0; BIND of a block that passes its check makes its queue active, one that fails leaves it with ERR 3,
UNBIND leaves an active queue unbound; a control block that cannot be read is ERR 8 of the queue
that asks. Outside device 0 each is ERR 7. The model's choices in it: log 7; that a descriptor or a program at addresses
without a home is ERR 8 too (log 66). -/
def Obligations.PrivilegedCommands : Prop :=
  (∀ (s : State) (q type : Nat) (x : Queue) (ws : List Word), Heads s q x ws type → x.vd ≠ 0 →
    ∀ p ∈ ([(8, .vdset q), (9, .bind q), (10, .unbind q), (11, .shoot q), (12, .polload q)] : List (Nat × Instr)),
      p.1 = type → Errs (exec p.2 s) q x 7)
  ∧ (∀ (s : State) (q type pa : Nat) (x : Queue) (ws : List Word) (l : Leaf), Heads s q x ws type → x.vd = 0 →
    (entryRead s x).translate 24 0 (ws.getD 1 0) .store = .ok (l, pa) → pa % 4 = 0 →
    let a := (ws.getD 2 0).toNat
    let v := (ws.getD 3 0).toNat
    let s1 := ((entryRead s x).keep 24 0 (ws.getD 1 0)).logCommand q x ws [] []
    let homed := fun (n : Nat) => ∀ i < n, s.homeState ((a + i) / 128 * 128) = .ok
    (type = 8 → ¬ homed 64 → Errs (exec (.vdset q) s) q x 8)
    ∧ (type = 12 → ¬ homed (4 * (v % 512)) → Errs (exec (.polload q) s) q x 8)
    ∧ (type = 8 → homed 64 → let d := fun i => (wordsOf (s1.homeBytes a 64) 8).getD i 0
      let legal := a % 64 = 0 ∧ v < 16 ∧ vdOk d = true
      (¬ legal → Answers s1 (exec (.vdset q) s) q x pa 2 fun u => u.vds = s.vds)
      ∧ (legal → Answers s1 (exec (.vdset q) s) q x pa 0 fun u => ∃ b, TabOps.find? u.vds v = some b
          ∧ b.depth = (d 1).toNat / 2 ^ 48 ∧ b.rate = (d 1).toNat / 2 ^ 32 % 2 ^ 16
          ∧ b.weight = (d 1).toNat / 2 ^ 28 % 16 ∧ b.inj = (d 1).getLsbD 0 ∧ b.checktab = (d 2).toNat
          ∧ b.grouptab = d 3 ∧ b.errring = (d 4).toNat / 2 ^ 12 * 2 ^ 12 ∧ b.errlog = (d 4).toNat % 16
          ∧ b.wdog = (d 5).toNat % 2 ^ 32 ∧ b.dies = (d 6).extractLsb' 0 24
          ∧ (s.hasQueues v = false → b.ptroot = (d 0).toNat / 2 ^ 21 * 2 ^ 21 ∧ b.key = (d 5).extractLsb' 32 32)
          ∧ (s.hasQueues v = true → b.ptroot = (s.vd v).ptroot ∧ b.key = (s.vd v).key)))
    ∧ (type = 11 → (16 ≤ v → Answers s1 (exec (.shoot q) s) q x pa 2 fun u => u.tlb = s1.tlb)
      ∧ (v < 16 → Answers s1 (exec (.shoot q) s) q x pa 0 fun u =>
          (∀ e ∈ u.tlb, e ∈ s1.tlb ∧ e.vd ≠ v) ∧ ∀ e ∈ s1.tlb, e.vd ≠ v → e ∈ u.tlb))
    ∧ (type = 12 → homed (4 * (v % 512)) → let n := v % 512
      let prog := (List.range n).map (fun i => BitVec.ofNat 32 (leValue (s1.homeBytes (a + 4 * i) 4)))
      (verify prog = false → Answers s1 (exec (.polload q) s) q x pa 1 fun u => u.policies = s.policies)
      ∧ (verify prog = true → Answers s1 (exec (.polload q) s) q x pa 0 fun u =>
          u.policies = TabOps.put s.policies (v / 2 ^ 60 * 256 + v / 2 ^ 48 % 256)
            { program := prog, persist := List.replicate 16 0 }))
    ∧ (v < 1024 → v ≠ q → (s.queue v).running = [] →
      let y := s.queue v
      let done := fun (o : Out State) (z : Queue) => NextWith o fun t =>
        TabOps.find? t.queues v = some z
        ∧ TabOps.find? t.queues q = some { x with
            next := x.next + 1
            head := x.head + 1
            picked := false }
      let here := StatusStands s1 q v (if type = 9 then some (ws.getD 2 0) else none) (ws.getD 1 0)
      (type = 10 → here → y.state = 1 → done (exec (.unbind q) s) { y with
          state := 0
          closing := false
          picked := false })
      ∧ (type = 10 → here → TabOps.find? s.queues v = some y → y.state ≠ 1 → done (exec (.unbind q) s) { y with closing := false })
      ∧ (type = 9 → a % 64 = 0 →
          s1.vaWords (if y.state = 0 then s.queueVd v else y.vd) (ws.getD 2 0) 8 = none →
          NextWith (exec (.bind q) s) fun t => TabOps.find? t.queues q = some { x with
              state := 2
              err := 8
              next := x.next + 1
              head := x.head + 1
              picked := false }
            ∧ MemoryFrame s1 t (fun _ => False))
      ∧ (∀ bs, type = 9 → a % 64 = 0 → here →
          s1.vaWords (if y.state = 0 then s.queueVd v else y.vd) (ws.getD 2 0) 8 = some bs →
        let w := fun i => bs.getD i 0
        (s.bindOk v w = true → done (exec (.bind q) s) { (if y.state = 1 then y else Queue.unbound) with
            state := 1
            err := 0
            logn := (w 0).toNat % 16
            ring := w 0 &&& ~~~0xFFF
            qcb := ws.getD 2 0
            vd := (w 4).toNat / 2 ^ 60
            prio := (w 4).toNat / 2 ^ 58 % 4
            gceil := (w 4).extractLsb' 56 2
            policy := (w 4).toNat / 2 ^ 48 % 256
            closing := false
            picked := false })
        ∧ (s.bindOk v w = false → done (exec (.bind q) s) { y with
            state := 2
            err := 3
            qcb := ws.getD 2 0
            vd := if y.state = 0 then s.queueVd v else y.vd
            closing := false
            picked := false }))))

/-- R384, R393, R403, R404: the verifier accepts only programs of 1 to 256 Compass instructions whose branches go
forward and stay in the program; a command of an enabled queue adds its entry, with the digests of its inputs as they then
stand, to the log, and one of another queue nothing; a replay whose inputs differ from the log is refused with ERR 9, one
that matches launches its grid with the logged places, or stores a POST's value again where the replay alone finds it
(R241); a housekeeping write sets RTBASE or RTQ. The model's choices in it: log 7, log 8; what the log and its ring look like (log 62). -/
def Obligations.VerifierAndReplay : Prop :=
  (∀ ws : List (BitVec 32), verify ws = true → 1 ≤ ws.length ∧ ws.length ≤ 256
    ∧ ∀ (pos : Nat) (w : BitVec 32), ws[pos]? = some w → ∃ i, decodeCompass w = .ok i
      ∧ ∀ k, branchAt i = some k → 1 ≤ k.toInt ∧ (pos : Int) + k.toInt ≤ ws.length)
  ∧ (∀ (s : State) (q : Nat) (x : Queue) (ws ps : List Word) (gs : List Nat),
    let t := s.logCommand q x ws ps gs
    let bytes := fun (va : Word) (n : Nat) => (List.range n).map (fun i =>
      match s.translate (24 + x.vd % 2) x.vd (va + BitVec.ofNat 64 i) .load with
      | .ok (_, pa) => s.homeByte pa
      | .error _ => 0)
    let digests := (TabOps.get [] s.retrace.inputs q).map (fun i => (i.1, i.2, sha512 (bytes i.1 i.2)))
    (s.retrace.rtq.testBit q = false → t = s)
    ∧ (s.retrace.rtq.testBit q = true →
      (∃ g, t.retrace.log = s.retrace.log ++
        [{ queue := q, command := ws, descG := g, packet := ps, inputs := digests, grids := gs,
           op := if (ws.getD 0 0).toNat / 2 ^ 56 = 2 ∨ (ws.getD 0 0).toNat / 2 ^ 56 = 3 then some s.opNext else none,
           sysc := [], places := [] }])
      ∧ t.queues = s.queues ∧ t.waves = s.waves ∧ t.grids = s.grids ∧ t.ops = s.ops
      ∧ (gs = [] → MemoryFrame s t (fun a => s.retrace.rtbase ≤ a))
      ∧ (gs ≠ [] → MemoryFrame s t (fun _ => False))))
  ∧ (∀ (s : State) (n : Nat) (e : LogEntry) (x : Queue), s.retrace.log[n]? = some e →
    TabOps.find? s.queues e.queue = some x → x.state = 1 →
    (s.inputsMatch x e = false → Errs (exec (.retraceReplay n) s) e.queue x 9)
    ∧ (s.inputsMatch x e = true → (e.command.getD 0 0).toNat / 2 ^ 56 = 1 →
      NextWith (exec (.retraceReplay n) s) fun t => t.queues = s.queues ∧ t.waves = s.waves
        ∧ MemoryFrame s t (fun _ => False)
        ∧ ∃ g, TabOps.find? t.grids s.opNext = some g ∧ g.packet = Packet.ofWords e.packet ∧ g.vd = x.vd
          ∧ g.fixed = some (TabOps.get [] e.places 0) ∧ g.replay = some (s.opNext, 0) ∧ g.shadow = some s.opNext
          ∧ g.life = .running)
    ∧ (s.inputsMatch x e = true → (e.command.getD 0 0).toNat / 2 ^ 56 = 5 →
      ∀ l pa, s.translate (24 + x.vd % 2) x.vd (e.command.getD 1 0) .store = .ok (l, pa) → pa % 8 = 0 →
        NextWith (exec (.retraceReplay n) s) fun t => t.queues = s.queues ∧ t.interrupts = s.interrupts
          ∧ MemoryFrame s t (fun _ => False)
          ∧ t.homeSeen (some s.opNext) pa 8 = leBytes (e.command.getD 2 0).toNat 8))
  ∧ ∀ (s : State) (n : Nat),
    exec (.housekeepingRegisterWrite .rtbase n) s = .next { s with
      retrace := { s.retrace with rtbase := n % 2 ^ 64 } }
    ∧ exec (.housekeepingRegisterWrite .rtq n) s = .next { s with retrace := { s.retrace with rtq := n % 2 ^ 1024 } }

/-! ### Pre-emption and Dawn -/

/-- R352 to R355, R357, R392, R394, R396, R400: the pick whose turn it is, and the end of a time slice, run the policy
of the queue, where one is loaded, with its candidates and the event's fields, or drain the grid; the dies with room
have their picks in ascending order; the watchdog and an urgent pre-emption stop neighbourhoods, whose waves count no
further once none of their chains is open; a save takes every team of its neighbourhood off its core with its waves' registers and places as they stand;
a restore puts them back, and an image that fails its check is a context fault. The picks' turns and fields (log 7,
log 71), and what an image holds (log 9), are the model's choices. -/
def Obligations.Preemption : Prop :=
  let later := fun (s : State) (c : Word) => if s.clock.toNat < c.toNat then c else s.clock
  (∀ (s : State) (vd pol die : Nat) (clock : Word) (p : Policy), s.compass = none →
    TabOps.find? s.policies (vd * 256 + pol) = some p →
    (∀ x, s.nextPick = some (die, x) → die < 24 ∧ s.dieRoom die = true ∧ die ∉ s.picks
      ∧ ((s.vd x.vd).dies = 0 ∨ (s.vd x.vd).dies.getLsbD die = true)
      ∧ (∃ i y, x.pol = some i ∧ (∃ k, (k, y) ∈ s.queues) ∧ y.vd = x.vd ∧ y.policy = i ∧ y.state = 1 ∧ y.next ≠ y.tail)
      ∧ ∀ d < die, s.dieRoom d = true → d ∈ s.picks ∨ ∀ v < 16, (s.vd v).mayUse d = true → s.pickable v = [])
    ∧ ((∀ x, s.nextPick = some (die, x) → x.vd ≠ vd ∨ x.pol ≠ some pol) → exec (.policyPick vd pol die clock) s = .next s)
    ∧ ((∃ x, s.nextPick = some (die, x) ∧ x.vd = vd ∧ x.pol = some pol) → NextWith (exec (.policyPick vd pol die clock) s) fun t =>
        t.queues = s.queues ∧ t.waves = s.waves ∧ t.picks = die :: s.picks ∧ ∃ r, t.compass = some r ∧ r.program = p.program ∧ r.pos = 0
          ∧ r.regs = List.replicate 16 0 ∧ r.steps = 0 ∧ r.event = .pick die ∧ r.view.length ≤ 64
          ∧ r.evf = [1, BitVec.ofNat 64 r.view.length, 0, BitVec.ofNat 64 die, 0, later s clock]))
  ∧ (∀ (s : State) (gid q : Nat) (held clock : Word) (g : Grid), s.compass = none → TabOps.find? s.grids gid = some g →
    g.life = .running → g.drain = false →
    let pol := TabOps.find? s.policies (g.vd * 256 + (s.queue q).policy)
    (g.queue = none ∨ (g.queue = some q ∧ pol = none) → NextWith (exec (.timeSliceEnd gid held clock) s) fun t =>
        TabOps.find? t.grids gid = some { g with drain := true } ∧ t.queues = s.queues
        ∧ ∀ j w, TabOps.find? s.waves j = some w →
            TabOps.find? t.waves j = some (if w.grid = gid then { w with drain := true } else w))
    ∧ (∀ p, g.queue = some q → pol = some p → NextWith (exec (.timeSliceEnd gid held clock) s) fun t =>
        t.grids = s.grids ∧ t.waves = s.waves ∧ ∃ r, t.compass = some r ∧ r.program = p.program ∧ r.event = .sliceEnd gid
          ∧ r.evf.getD 0 0 = 2 ∧ r.evf.getD 2 0 = BitVec.ofNat 64 q ∧ r.evf.getD 4 0 = held ∧ r.evf.getD 5 0 = later s clock))
  ∧ (∀ (s : State) (gid nb : Nat) (g : Grid) (n : Nb), TabOps.find? s.nbs nb = some n → n.life = .placed →
    (NextWith (exec (.urgentPreemption nb) s) fun t =>
      TabOps.find? t.nbs nb = some { n with life := .stopping } ∧ t.teams = s.teams
      ∧ (∀ j, j ≠ nb → TabOps.find? t.nbs j = TabOps.find? s.nbs j)
      ∧ ∀ i w, TabOps.find? s.waves i = some w →
        let stops := s.chainsOver n = true ∧ (∃ k ∈ n.teams, ∃ u, TabOps.find? s.teams k = some u ∧ i ∈ u.waves) ∧ w.life = .running ∧ w.stopAt = none
        (stops → TabOps.find? t.waves i = some { w with stopAt := some (s.core (w.die * 48 + w.core)).cycle })
        ∧ (¬ stops → TabOps.find? t.waves i = some w))
    ∧ (TabOps.find? s.grids gid = some g → g.drain = true → g.life = .running → TabOps.rises s.nbs = true →
      NextWith (exec (.drainWatchdogExpire gid) s) fun t => t.teams = s.teams
        ∧ (∀ i w, TabOps.find? s.waves i = some w → ∃ x, TabOps.find? t.waves i = some { w with stopAt := x })
        ∧ TabOps.find? t.nbs nb = some (if n.grid = gid
            ∧ n.teams.any (fun i => (TabOps.find? s.teams i).any (fun u => u.life == .running))
          then { n with life := .stopping } else n)))
  ∧ (∀ (s : State) (nb image : Nat) (n : Nb) (g : Grid), TabOps.find? s.nbs nb = some n →
    TabOps.find? s.grids n.grid = some g → s.nbSavable n = true →
    NextWith (exec (.contextSave nb image) s) fun t =>
      (∃ m, TabOps.find? t.nbs nb = some m ∧ m.life = .saved ∧ m.image = some image ∧ m.grid = n.grid
        ∧ m.teams = n.teams)
      ∧ ∀ tid ∈ n.teams, ∀ u, TabOps.find? s.teams tid = some u → u.grid = n.grid → u.life = .running ∨ u.life = .held →
          TeamIs t tid (fun v => v = { u with
            life := .saved
            core := 100000 })
          ∧ ∀ i ∈ u.waves, ∀ w, TabOps.find? s.waves i = some w → w.life ≠ .ended → WaveIs t i fun v =>
            v.life = .saved ∧ v.sregs = w.sregs ∧ v.vregs = w.vregs ∧ v.flg = w.flg ∧ v.aflg = w.aflg ∧ v.gst = w.gst
            ∧ v.cause = w.cause ∧ v.evpend = w.evpend ∧ v.handle = w.handle
            ∧ ∀ k f, w.frag? k = some f → ∃ since, v.frag? k = some { f with since := since })
  ∧ (∀ (s : State) (nb pa : Nat) (n : Nb) (g : Grid), TabOps.find? s.nbs nb = some n →
    TabOps.find? s.grids n.grid = some g → n.image = some pa → n.life = .saved → g.life = .running →
    (g.drain = true → s.drainOver n.grid = false → exec (.contextRestore nb) s = .next s)
    ∧ (g.drain = false ∨ s.drainOver n.grid = true → s.readImage pa ≠ some (savedChunks n.saveNo).flatten → NextWith (exec (.contextRestore nb) s) fun t =>
      TabOps.find? t.grids n.grid = some { g with life := .stopping, state := 3, cause := 0, tpc := 0, tinfo := 0 })
    ∧ (∀ die o, g.drain = false ∨ s.drainOver n.grid = true → s.readImage pa = some (savedChunks n.saveNo).flatten →
        s.restorePlace nb n g = some (die, o) → NextWith (exec (.contextRestore nb) s) fun t =>
        TabOps.find? t.nbs nb = some { n with life := .placed, die := die, origin := o, image := none }
        ∧ TabOps.find? t.grids n.grid = some { g with drain := false }
        ∧ ∀ tid ∈ n.teams, ∀ u, TabOps.find? s.teams tid = some u → u.life = .saved →
            TeamIs t tid (fun v => v.life = .running ∧ v.die = die ∧ v.core = o + g.packet.map.getD u.mapSlot 0
              ∧ v.waves = u.waves ∧ v.sp = u.sp ∧ v.tiles = u.tiles)
            ∧ ∀ i ∈ u.waves, ∀ w, TabOps.find? s.waves i = some w → w.life ≠ .ended → WaveIs t i fun v =>
              v.life = .running ∧ v.handle = w.handle ∧ v.sregs = w.sregs ∧ v.vregs = w.vregs ∧ v.cause = w.cause
              ∧ v.evpend = w.evpend ∧ v.drain = false ∧ v.stopAt = none
              ∧ ((∀ k ∈ n.teams, ∀ u', TabOps.find? s.teams k = some u' → i ∈ u'.waves → k = tid) →
                (w.stopAt.getD 0).toNat ≤ (t.core v.key).cycle.toNat)
              ∧ ∀ k f, w.frag? k = some f → ∃ since, v.frag? k = some { f with since := since }))

/-- R345, R397 to R402, R405: power-on puts every unit in reset and unlocks the stages whose images pass; a trained
die with verified microcode enters Twilight service, and full service once Twilight is over and it is idle; only the
second missed heartbeat in a row resets a processor; a die's reset stops its grids with its TINFO; a fence takes its
unit away. The model's choices: one next state for each power-on (log 1), 16 command processors (log 72), log 12, log
61. -/
def Obligations.PowerAndService : Prop :=
  (∀ s : State, NextWith (exec .powerOn s) fun t =>
    t.waves = [] ∧ t.teams = [] ∧ t.grids = [] ∧ t.queues = [] ∧ t.dies = [] ∧ t.dram = [] ∧ t.dawn.running = true
    ∧ t.dawn.flash = s.dawn.flash ∧ t.dawn.keyHash = s.dawn.keyHash
    ∧ ((s.dawn.image 1).isSome → (s.dawn.image 2).isSome → t.dawn.stage = 2 ∧ t.dawn.recovery = false)
    ∧ ((s.dawn.image 1).isSome → s.dawn.image 2 = none → t.dawn.stage = 1 ∧ t.dawn.recovery = true)
    ∧ (s.dawn.image 1 = none → t.dawn.stage = 0 ∧ t.dawn.recovery = true))
  ∧ (∀ (d : Dawn) (kind : Nat) (i : FlashImage), d.image kind = some i →
    (i.header.getD 0 0).toNat / 2 ^ 48 = 0xDA57 ∧ (i.header.getD 0 0).toNat / 2 ^ 40 % 256 = kind
    ∧ d.revoked.getD ((i.header.getD 0 0).toNat / 2 ^ 32 % 256) true = false
    ∧ d.keyHash.getD ((i.header.getD 0 0).toNat / 2 ^ 32 % 256) [] = sha512 i.key
    ∧ d.minSvn.getD (kind - 1) 0 ≤ (i.header.getD 0 0).toNat % 2 ^ 32
    ∧ ecdsaVerify i.key i.digest i.sig = true)
  ∧ (∀ (s : State) (die : Nat), die < 24 → s.dawn.running = true →
    ((s.die die).trained = false → (s.die die).service ≠ .fenced → s.dawn.recovery = false → s.dawn.stage ≥ 2 →
      (s.dawn.image 3).isSome → NextWith (exec (.hbmTrainingComplete die) s) fun t =>
        t.die die = { s.die die with trained := true, unlocked := true, service := .twilight } ∧ t.waves = s.waves
        ∧ t.dawn.stage = max s.dawn.stage 3 ∧ MemoryFrame s t (fun _ => False) ∧ ∀ j, j ≠ die → t.die j = s.die j)
    ∧ (s.dawn.stage ≥ 2 → exec .attestationRequest s = .next { s with
        dawn := { s.dawn with attested := Config.attest s.dawn.measured } })
    ∧ ∀ cp < 16, s.dawn.missed.length = 16 →
        (exec (.heartbeat cp) s = .next { s with dawn := { s.dawn with missed := s.dawn.missed.set cp 0 } })
        ∧ (s.dawn.missed.getD cp 0 = 0 → exec (.heartbeatMiss cp) s = .next { s with
            dawn := { s.dawn with missed := s.dawn.missed.set cp 1 } })
        ∧ (s.dawn.missed.getD cp 0 = 1 → exec (.heartbeatMiss cp) s = .next { s with
            dawn := { s.dawn with missed := s.dawn.missed.set cp 0, resets := s.dawn.resets + 1 } }))
  ∧ (∀ (s : State) (die gid nb : Nat) (g : Grid) (n : Nb) (answers : Bool), (s.die die).up = true →
    TabOps.find? s.grids gid = some g → g.life ≠ .retired → (nb, n) ∈ s.nbs → n.grid = gid → n.die = die →
    n.life = .placed → (∀ j h, TabOps.find? s.grids j = some h → h.parent = none) → TabOps.rises s.grids = true →
    NextWith (exec (.dieReset die answers) s) fun t => (t.die die).service = .resetting
      ∧ TabOps.find? t.grids gid = some { g with
          life := .stopping
          state := 2
          cause := 0
          tpc := 0
          tinfo := 0x8000000000000000 + BitVec.ofNat 64 die }
      ∧ ∀ i w, TabOps.find? s.waves i = some w → w.grid = gid → w.life ≠ .ended → WaveIs t i fun v => v.life = .ended)
  ∧ (∀ (s : State) (die : Nat),
    ((s.die die).service = .resetting → s.dawn.recovery = false → (s.dawn.image 3).isSome →
      NextWith (exec (.dieReturnToService die) s) fun t =>
        t.die die = { s.die die with service := .twilight, unlocked := true } ∧ t.waves = s.waves
        ∧ MemoryFrame s t (fun _ => False))
    ∧ ((s.die die).service = .twilight → (∀ d < 24, (s.die d).service ≠ .fenced → (s.die d).trained = true) →
      (∀ p ∈ s.cxl, p.enumerated = true ∨ p.fenced = true) →
      (∀ u ∈ s.teams, u.2.die = die → u.2.life = .retired ∨ u.2.life = .saved) →
      NextWith (exec (.fullServiceSwitch die) s) fun t =>
        t.die die = { s.die die with service := .full } ∧ t.waves = s.waves ∧ ∀ j, j ≠ die → t.die j = s.die j))
  ∧ ∀ (s : State) (d c b p : Nat),
    (NextWith (exec (.unitFence (.core d c)) s) fun t => (t.core (d * 48 + c)).fenced = true ∧ t.waves = s.waves)
    ∧ (NextWith (exec (.unitFence (.die d)) s) fun t => (t.die d).service = .fenced
      ∧ (d < 24 → ∀ pa, pa / 2 ^ 36 = d → t.homeState pa = .none))
    ∧ (NextWith (exec (.unitFence (.bank d b)) s) fun t => (d, b) ∈ t.dawn.fencedBanks ∧ t.waves = s.waves)
    ∧ (NextWith (exec (.unitFence (.ethPort p)) s) fun t => p ∈ t.dawn.fencedEth ∧ t.waves = s.waves)
    ∧ (p < s.cxl.length → NextWith (exec (.unitFence (.cxlPort p)) s) fun t =>
        (t.port p).linkUp = false ∧ (t.port p).available = false ∧ (t.port p).fenced = true
        ∧ ∀ pa off, cxlOf pa = some (p, off) → ((t.port p).enumerated = true → off < (t.port p).size) →
            t.homeState pa = .cxlDown)

/-! ### The step, decoding and the whole machine -/

/-- R43, R47, R73, R85, R86, R94, R392: with nothing due and no input, a step fetches the parcels at the pc of the
fragment that the scheduler picks, executes the instruction that they decode to in the state in which its turn is
served, and ends a chain that is not continued; bytes that are no instruction raise ILLOP there. A dictionary parcel
executes its entry in the core's dictionary RAM in its place. A step of a policy run executes the word at its
position; an event of the agenda happens as exec says. The model's choices in it: log 3, log 5, which
stores a fetch outside the text may see (log 64), that a fetch reads its whole line (log 74), and that the handler is
entered at TVEC with bit 0 cleared (log 65). -/
def Obligations.StepRunsDecoded : Prop :=
  (∀ (s : State) (x : Turn) (w : Wave) (f : Fragment) (g : Grid) (ps : List (BitVec 16)), s.compass = none →
    s.due = none → s.agenda = [] → s.turn = false → s.pick = some x → TabOps.find? s.waves x.wave = some w →
    w.frag? x.frag = some f → TabOps.find? s.grids w.grid = some g → w.arrives f = false →
    (∀ k p, ps[k]? = some p → s.fetchParcel x.wave w g (f.pc + BitVec.ofNat 64 (2 * k)) = .ok p) →
    let bs : List Byte := ps.flatMap (fun p => [p.extractLsb' 0 8, p.extractLsb' 8 8])
    (∀ i n, decodeBytes bs = .ok (i, n) →
      step s = andThen (exec i ((s.issued x.wave x.frag w f g n).reopened f))
        (fun t => (t.reclosed s f).afterIssue x.wave)
      ∧ (f.waited = [] → (s.issued x.wave x.frag w f g n).reopened f = s.issued x.wave x.frag w f g n
        ∧ ∀ t : State, t.reclosed s f = t)
      ∧ (s.issued x.wave x.frag w f g n).cur = some { wave := x.wave, frag := x.frag, ilen := n }
      ∧ MemoryFrame s (s.issued x.wave x.frag w f g n) (fun _ => False))
    ∧ (∀ e, decodeBytes bs = .error e → bs.length = 8 → w.inh = none → g.packet.tvec ≠ 0 → NextWith (step s) fun t =>
        MemoryFrame s t (fun _ => False) ∧ WaveIs t x.wave fun v => v.cause = w.cause ||| 1 ∧ v.tpc = f.pc
          ∧ v.tmask = f.mask ∧ v.inh = some x.frag ∧ v.sregs = w.sregs ∧ v.vregs = w.vregs
          ∧ ∃ h, v.frag? x.frag = some h ∧ h.pc = g.packet.tvec &&& ~~~1))
  ∧ (∀ (s : State) (c : Ctx) (i : BitVec 10) (e : Word) (j : Instr), s.ctx? = some c → i.toNat < c.g.packet.dictN →
    s.dictWord c.w c.g i.toNat = some e → decodeEntry e = .ok j →
    ∃ t, exec j s = .next t ∧ exec (.dictionaryParcel i) s = .next t)
  ∧ (∀ (s : State) (c : Ctx) (i : BitVec 10), s.ctx? = some c → c.g.packet.dictN ≤ i.toNat →
    Traps s c (exec (.dictionaryParcel i) s) 1 0)
  ∧ (∀ (s : State) (r : PolicyRun) (w : BitVec 32) (i : Instr), s.compass = some r → r.program[r.pos]? = some w →
    decodeCompass w = .ok i → step s = exec i s)
  ∧ (∀ (s t : State) (i : Instr) (rest : List Action), s.compass = none → s.due = none → s.agenda = .event i :: rest →
    exec i { s with agenda := rest, cur := none } = .next t → step s = .next t)

/-- R74, R75, R78, R80, R85, R87 to R93, R392: words that the spec writes out decode to their instructions. -/
def Obligations.DecodeExamples : Prop :=
  decode (.word 0x8210001A) = .ok (.saddi 2 0 26) ∧ decode (.word 0x3E8003DA) = .ok (.vfadd none true 0 3 218)
  ∧ decode (.pair 0x45030102 0x00041000) = .ok (.vfma (some
      { sat := 0, nega := false, negb := false, absa := false, absb := false, scale := 0, rnd := 1, srcc := 4 })
      false 3 1 2)
  ∧ decode (.word 0x4205FCFC) = .ok (.vfmul none false 5 252 252) ∧ decode (.word 0xBC000002) = .ok .endw
  ∧ decode (.parcel 0xF800) = .ok (.dictionaryParcel 0) ∧ decode (.word 0xD4000005) = .ok (.trap 5)
  ∧ decode (.word 0xC01882C0) = .ok (.mscpin 3 4 5) ∧ decode (.word 0xC000801D) = .ok (.racq 4 5)
  ∧ decode (.word 0xD058C00C) = .ok (.nbcopy 11 6 true) ∧ decode (.word 0xD250C004) = .ok (.xar 10 6 true)
  ∧ decode (.word 0xCA280038) = .ok (.cbacq 5 0)
  ∧ decode (.compass 0x5C400001) = .ok (.cLde 1 1) ∧ decode (.compass 0x401C0003) = .ok (.cBeq 7 0 3)
  ∧ decodeBytes [0x03, 0x45, 0x02, 0x01, 0x04, 0x00, 0x00, 0x10] = (decode (.pair 0x45030102 0x00041000)).map (·, 8)
  ∧ decodeBytes [0x10, 0x82, 0x1A, 0x00] = .ok (.saddi 2 0 26, 4)

/-- R73 to R94: decode and encode agree. The code of a well-formed instruction of a wave or of a policy decodes to that
instruction, with every operand; so do its bytes in memory, with their length. -/
def Obligations.DecodeOfEncode : Prop :=
  ∀ (i : Instr) (c : Code), i.wf = true → encode i = some c →
    decode c = .ok i ∧ ((∀ w, c ≠ .compass w) → ∀ rest, decodeBytes (c.bytes ++ rest) = .ok (i, c.bytes.length))

/-- R44, R49: every step keeps every memory in its canonical form: DRAM, the scratchpads, the images of the grids. The
model's choices in it: log 1. -/
def Obligations.MemoriesKept : Prop :=
  ∀ s t : State, MemoriesOk s → step s = .next t → MemoriesOk t

/-- R158: the mask of every fragment is a subset of its lanes. -/
def MaskInLanes (s : State) : Prop :=
  ∀ w ∈ s.waves, ∀ i f, w.2.frag? i = some f → f.mask &&& ~~~f.lanes = 0

/-- R158: MASK is always a subset of the fragment's lanes: every step keeps it so. -/
def Obligations.MaskStaysInLanes : Prop :=
  ∀ s t : State, MaskInLanes s → step s = .next t → MaskInLanes t

/-- R36, R44, R46, R397: at power-on every unit is in reset: no wave, team, grid or queue, every die held, no port
enumerated, no stage unlocked; the memories have their canonical form and every mask lies in its lanes. That no device
has a node and no window is registered there is the model's choice (log 2). -/
def Obligations.ResetState : Prop :=
  State.reset.waves = [] ∧ State.reset.teams = [] ∧ State.reset.grids = [] ∧ State.reset.ops = []
  ∧ State.reset.queues = [] ∧ State.reset.msc = [] ∧ State.reset.tlb = [] ∧ State.reset.dawn.stage = 0
  ∧ State.reset.dawn.running = false ∧ (∀ d, (State.reset.die d).service = .held ∧ (State.reset.die d).trained = false)
  ∧ (∀ p, (State.reset.port p).enumerated = false) ∧ (∀ k, (State.reset.core k).l1 = [])
  ∧ (∀ q, (State.reset.queue q).state = 0) ∧ State.reset.nodes = [] ∧ State.reset.windows = [] ∧ State.reset.cxl.length = 12 ∧ MemoriesOk State.reset
  ∧ MaskInLanes State.reset

/-- The machine always goes on: every instruction of a wave in a running fragment, every Compass instruction in a policy
run and every step of another agent in any state has a next state, and so has every step from every state. The model's
choices in it: log 3, log 60. -/
def Obligations.EveryStepGoesOn : Prop :=
  (∀ (i : Instr) (c : Code) (s : State), encode i = some c → (∀ w, c ≠ .compass w) → s.ctx? ≠ none →
    ∃ t, exec i s = .next t)
  ∧ (∀ (i : Instr) (w : BitVec 32) (s : State), encode i = some (.compass w) → s.compass ≠ none → ∃ t, exec i s = .next t)
  ∧ (∀ (i : Instr) (s : State), encode i = none → ∃ t, exec i s = .next t)
  ∧ ∀ s : State, GoesOn s
end

