-- ==== Sys2Proof/Laws/Tab.lean ====
section
/-! SUPPORT. Sparse tables and byte memories: reading after writing, and the canonical form. -/

namespace Sys2Proof.Machine

variable {α : Type}

/-! ### Tables -/

@[simp] theorem TabOps.find?_put_same (t : Tab α) (k : Nat) (v : α) : find? (put t k v) k = some v := by
  induction t with
  | nil => simp [put, find?]
  | cons h t ih =>
    obtain ⟨i, u⟩ := h
    simp only [put]
    split
    · simp [find?]
    · split
      · simp [find?]
      · simp [find?, ih, Ne.symm ‹_›]

theorem TabOps.find?_put_ne (t : Tab α) {k j : Nat} (v : α) (h : j ≠ k) : find? (put t k v) j = find? t j := by
  induction t with
  | nil => simp [put, find?, h.symm]
  | cons x t ih =>
    obtain ⟨i, u⟩ := x
    simp only [put]
    split
    · simp [find?, h.symm]
    · split
      · subst_vars; simp [find?, h.symm]
      · simp [find?, ih]

theorem TabOps.find?_put (t : Tab α) (k j : Nat) (v : α) :
    find? (put t k v) j = if j = k then some v else find? t j := by
  split
  · subst_vars; exact find?_put_same t _ v
  · exact find?_put_ne t v ‹_›

theorem TabOps.put_put (t : Tab α) (k : Nat) (u v : α) : put (put t k u) k v = put t k v := by
  induction t with
  | nil => simp [put]
  | cons x t ih =>
    obtain ⟨i, y⟩ := x
    simp only [put]
    split
    · simp [put]
    · split
      · simp [put]
      · simp [put, *]

theorem TabOps.find?_drop_same (t : Tab α) (k : Nat) : find? (drop t k) k = none := by
  induction t with
  | nil => rfl
  | cons x t ih =>
    obtain ⟨i, u⟩ := x
    simp only [drop]
    split
    · exact ih
    · simp [find?, *]

theorem TabOps.find?_drop_ne (t : Tab α) {k j : Nat} (h : j ≠ k) : find? (drop t k) j = find? t j := by
  induction t with
  | nil => rfl
  | cons x t ih =>
    obtain ⟨i, u⟩ := x
    simp only [drop]
    split
    · subst_vars; simp [find?, ih, h.symm]
    · simp [find?, ih]

theorem TabOps.find?_mapVals (g : Nat → α → α) (t : Tab α) (k : Nat) :
    find? (mapVals g t) k = (find? t k).map (g k) := by
  induction t with
  | nil => rfl
  | cons x t ih =>
    obtain ⟨i, u⟩ := x
    simp only [mapVals, find?]
    split
    · subst_vars; rfl
    · exact ih

theorem TabOps.mem_of_find? {t : Tab α} {k : Nat} {v : α} (h : find? t k = some v) : (k, v) ∈ t := by
  induction t with
  | nil => simp [find?] at h
  | cons x t ih =>
    obtain ⟨i, u⟩ := x
    simp only [find?] at h
    split at h
    · simp_all
    · exact List.mem_cons_of_mem _ (ih h)

theorem TabOps.mem_put {t : Tab α} {k : Nat} {v : α} {x : Nat × α} (h : x ∈ put t k v) : x = (k, v) ∨ x ∈ t := by
  induction t with
  | nil => simpa [put] using h
  | cons y t ih =>
    obtain ⟨i, u⟩ := y
    simp only [put] at h
    split at h
    · simpa using h
    · split at h
      · simp at h; aesop
      · simp only [List.mem_cons] at h ⊢
        obtain h | h := h
        · exact .inr (.inl h)
        · exact (ih h).imp_right .inr

theorem TabOps.mem_drop {t : Tab α} {k : Nat} {x : Nat × α} (h : x ∈ drop t k) : x ∈ t := by
  induction t with
  | nil => exact h
  | cons y t ih =>
    obtain ⟨i, u⟩ := y
    simp only [drop] at h
    split at h
    · exact List.mem_cons_of_mem _ (ih h)
    · simp only [List.mem_cons] at h ⊢
      exact h.imp_right ih

theorem TabOps.mem_mapVals {g : Nat → α → α} {t : Tab α} {x : Nat × α} (h : x ∈ mapVals g t) :
    ∃ v, (x.1, v) ∈ t ∧ x.2 = g x.1 v := by
  induction t with
  | nil => cases h
  | cons y t ih =>
    obtain ⟨i, u⟩ := y
    simp only [mapVals, List.mem_cons] at h
    obtain rfl | h := h
    · exact ⟨u, by simp, rfl⟩
    · obtain ⟨v, hv, e⟩ := ih h
      exact ⟨v, List.mem_cons_of_mem _ hv, e⟩

/-! ### Rising keys -/

theorem TabOps.risesFrom_mono {t : Tab α} {b c : Nat} (h : risesFrom b t = true) (hc : c ≤ b) :
    risesFrom c t = true := by
  cases t with
  | nil => rfl
  | cons x t => simp [risesFrom] at h ⊢; exact ⟨by omega, h.2⟩

theorem TabOps.risesFrom_put {t : Tab α} {b k : Nat} (v : α) (h : risesFrom b t = true) (hk : b ≤ k) :
    risesFrom b (put t k v) = true := by
  induction t generalizing b with
  | nil => simp [put, risesFrom, hk]
  | cons x t ih =>
    obtain ⟨i, u⟩ := x
    simp only [risesFrom, Bool.and_eq_true, decide_eq_true_eq] at h
    simp only [put]
    split
    · simp only [risesFrom, Bool.and_eq_true, decide_eq_true_eq]; exact ⟨hk, by omega, h.2⟩
    · split
      · simp only [risesFrom, Bool.and_eq_true, decide_eq_true_eq]; subst_vars; exact ⟨hk, h.2⟩
      · simp only [risesFrom, Bool.and_eq_true, decide_eq_true_eq]; exact ⟨h.1, ih h.2 (by omega)⟩

theorem TabOps.risesFrom_drop {t : Tab α} {b : Nat} (k : Nat) (h : risesFrom b t = true) :
    risesFrom b (drop t k) = true := by
  induction t generalizing b with
  | nil => rfl
  | cons x t ih =>
    obtain ⟨i, u⟩ := x
    simp only [risesFrom, Bool.and_eq_true, decide_eq_true_eq] at h
    simp only [drop]
    split
    · exact risesFrom_mono (ih h.2) (by omega)
    · simp only [risesFrom, Bool.and_eq_true, decide_eq_true_eq]; exact ⟨h.1, ih h.2⟩

/-! ### Byte memories -/

@[simp] theorem MemOps.read_write_same (m : Mem) (a : Nat) (b : Byte) : read (write m a b) a = b := by
  unfold read write TabOps.get
  split
  · subst_vars; simp [TabOps.find?_drop_same]
  · simp

theorem MemOps.read_write_ne (m : Mem) {a c : Nat} (b : Byte) (h : c ≠ a) : read (write m a b) c = read m c := by
  unfold read write TabOps.get
  split
  · rw [TabOps.find?_drop_ne _ h]
  · rw [TabOps.find?_put_ne _ _ h]

theorem MemOps.read_writeBytes_outside (m : Mem) (a : Nat) (bs : List Byte) {c : Nat}
    (h : c < a ∨ a + bs.length ≤ c) : read (writeBytes m a bs) c = read m c := by
  induction bs generalizing m a with
  | nil => rfl
  | cons b bs ih =>
    simp only [List.length_cons] at h
    rw [writeBytes, ih _ _ (by omega), read_write_ne _ _ (by omega)]

/-! ### The canonical form -/

theorem Memory.wf_nil : Memory.wf [] = true := rfl

theorem Memory.wf_write {m : Mem} (a : Nat) (b : Byte) (h : Memory.wf m = true) :
    Memory.wf (MemOps.write m a b) = true := by
  unfold Memory.wf TabOps.rises at *
  simp only [Bool.and_eq_true, List.all_eq_true, decide_eq_true_eq] at *
  unfold MemOps.write
  split
  · exact ⟨TabOps.risesFrom_drop a h.1, fun x hx => h.2 x (TabOps.mem_drop hx)⟩
  · refine ⟨TabOps.risesFrom_put b h.1 (Nat.zero_le a), fun x hx => ?_⟩
    obtain e | hx := TabOps.mem_put hx
    · rw [e]; exact ‹¬b = 0›
    · exact h.2 x hx

theorem Memory.wf_writeBytes {m : Mem} (a : Nat) (bs : List Byte) (h : Memory.wf m = true) :
    Memory.wf (MemOps.writeBytes m a bs) = true := by
  induction bs generalizing m a with
  | nil => exact h
  | cons b bs ih => exact ih (a + 1) (wf_write a b h)

end Sys2Proof.Machine
end

