-- ==== Sys2Proof/Laws/Memory.lean ====
section
/-! SUPPORT. The canonical form of the memories: at reset, and through the operations that write lines back. -/

namespace Sys2Proof.Machine

theorem State.reset_dram_wf : Memory.wf State.reset.dram = true := rfl

theorem Memory.wf_flushBytes (line : Nat) (l : MscLine) (m : Mem) (n : Nat) (h : Memory.wf m = true) :
    Memory.wf (flushBytes line l m n) = true := by
  induction n with
  | zero => exact h
  | succ n ih =>
    unfold flushBytes
    split
    · exact Memory.wf_write _ _ ih
    · exact ih

theorem Memory.wf_writes (xs : List (Nat × Byte)) (m : Mem) (h : Memory.wf m = true) :
    Memory.wf (xs.foldl (fun m c => MemOps.write m c.1 c.2) m) = true := by
  induction xs generalizing m with
  | nil => exact h
  | cons c cs ih => exact ih _ (Memory.wf_write _ _ h)

theorem Memory.wf_flushAll (xs : Tab MscLine) (m : Mem) (h : Memory.wf m = true) :
    Memory.wf (xs.foldl (fun m c => flushBytes c.1 c.2 m 128) m) = true := by
  induction xs generalizing m with
  | nil => exact h
  | cons c cs ih => exact ih _ (Memory.wf_flushBytes _ _ _ _ h)

theorem State.homeImage_wf (s : State) (x : Option Nat) (h : Memory.wf s.dram = true) :
    Memory.wf (s.homeImage x) = true := by
  unfold State.homeImage
  cases x with
  | none => exact Memory.wf_flushAll _ _ h
  | some n => exact Memory.wf_writes _ _ (Memory.wf_flushAll _ _ h)

end Sys2Proof.Machine
end

