-- ==== Sys2Proof/Laws/State.lean ====
section
/-! SUPPORT. One lemma per field of the state and per update of it, and the same for a wave: what an update changes,
and that it changes nothing else. -/

namespace Sys2Proof.Machine

section
variable (s : State) (i : Nat) (w : Wave)
@[simp] theorem State.setWave_agenda : (s.setWave i w).agenda = s.agenda := rfl
@[simp] theorem State.setWave_cur : (s.setWave i w).cur = s.cur := rfl
@[simp] theorem State.setWave_turn : (s.setWave i w).turn = s.turn := rfl
@[simp] theorem State.setWave_free : (s.setWave i w).free = s.free := rfl
@[simp] theorem State.setWave_opNext : (s.setWave i w).opNext = s.opNext := rfl
@[simp] theorem State.setWave_last : (s.setWave i w).last = s.last := rfl
@[simp] theorem State.setWave_waves : (s.setWave i w).waves = TabOps.put s.waves i w := rfl
@[simp] theorem State.setWave_teams : (s.setWave i w).teams = s.teams := rfl
@[simp] theorem State.setWave_nbs : (s.setWave i w).nbs = s.nbs := rfl
@[simp] theorem State.setWave_grids : (s.setWave i w).grids = s.grids := rfl
@[simp] theorem State.setWave_ops : (s.setWave i w).ops = s.ops := rfl
@[simp] theorem State.setWave_calls : (s.setWave i w).calls = s.calls := rfl
@[simp] theorem State.setWave_engines : (s.setWave i w).engines = s.engines := rfl
@[simp] theorem State.setWave_cores : (s.setWave i w).cores = s.cores := rfl
@[simp] theorem State.setWave_dies : (s.setWave i w).dies = s.dies := rfl
@[simp] theorem State.setWave_dram : (s.setWave i w).dram = s.dram := rfl
@[simp] theorem State.setWave_writeLog : (s.setWave i w).writeLog = s.writeLog := rfl
@[simp] theorem State.setWave_poisoned : (s.setWave i w).poisoned = s.poisoned := rfl
@[simp] theorem State.setWave_errors : (s.setWave i w).errors = s.errors := rfl
@[simp] theorem State.setWave_codes : (s.setWave i w).codes = s.codes := rfl
@[simp] theorem State.setWave_transit : (s.setWave i w).transit = s.transit := rfl
@[simp] theorem State.setWave_corrected : (s.setWave i w).corrected = s.corrected := rfl
@[simp] theorem State.setWave_msc : (s.setWave i w).msc = s.msc := rfl
@[simp] theorem State.setWave_owners : (s.setWave i w).owners = s.owners := rfl
@[simp] theorem State.setWave_pins : (s.setWave i w).pins = s.pins := rfl
@[simp] theorem State.setWave_tlb : (s.setWave i w).tlb = s.tlb := rfl
@[simp] theorem State.setWave_buckets : (s.setWave i w).buckets = s.buckets := rfl
@[simp] theorem State.setWave_requests : (s.setWave i w).requests = s.requests := rfl
@[simp] theorem State.setWave_intake : (s.setWave i w).intake = s.intake := rfl
@[simp] theorem State.setWave_bankQ : (s.setWave i w).bankQ = s.bankQ := rfl
@[simp] theorem State.setWave_links : (s.setWave i w).links = s.links := rfl
@[simp] theorem State.setWave_stops : (s.setWave i w).stops = s.stops := rfl
@[simp] theorem State.setWave_cxl : (s.setWave i w).cxl = s.cxl := rfl
@[simp] theorem State.setWave_windows : (s.setWave i w).windows = s.windows := rfl
@[simp] theorem State.setWave_interrupts : (s.setWave i w).interrupts = s.interrupts := rfl
@[simp] theorem State.setWave_hostData : (s.setWave i w).hostData = s.hostData := rfl
@[simp] theorem State.setWave_inbox : (s.setWave i w).inbox = s.inbox := rfl
@[simp] theorem State.setWave_vds : (s.setWave i w).vds = s.vds := rfl
@[simp] theorem State.setWave_queues : (s.setWave i w).queues = s.queues := rfl
@[simp] theorem State.setWave_policies : (s.setWave i w).policies = s.policies := rfl
@[simp] theorem State.setWave_compass : (s.setWave i w).compass = s.compass := rfl
@[simp] theorem State.setWave_polCalls : (s.setWave i w).polCalls = s.polCalls := rfl
@[simp] theorem State.setWave_cpCycle : (s.setWave i w).cpCycle = s.cpCycle := rfl
@[simp] theorem State.setWave_clock : (s.setWave i w).clock = s.clock := rfl
@[simp] theorem State.setWave_pickTurn : (s.setWave i w).pickTurn = s.pickTurn := rfl
@[simp] theorem State.setWave_picks : (s.setWave i w).picks = s.picks := rfl
@[simp] theorem State.setWave_nodes : (s.setWave i w).nodes = s.nodes := rfl
@[simp] theorem State.setWave_ownerVd : (s.setWave i w).ownerVd = s.ownerVd := rfl
@[simp] theorem State.setWave_collSeq : (s.setWave i w).collSeq = s.collSeq := rfl
@[simp] theorem State.setWave_rounds : (s.setWave i w).rounds = s.rounds := rfl
@[simp] theorem State.setWave_departed : (s.setWave i w).departed = s.departed := rfl
@[simp] theorem State.setWave_moduleNo : (s.setWave i w).moduleNo = s.moduleNo := rfl
@[simp] theorem State.setWave_dawn : (s.setWave i w).dawn = s.dawn := rfl
@[simp] theorem State.setWave_retrace : (s.setWave i w).retrace = s.retrace := rfl
end

section
variable (s : State) (i : Nat) (t : Team)
@[simp] theorem State.setTeam_agenda : (s.setTeam i t).agenda = s.agenda := rfl
@[simp] theorem State.setTeam_cur : (s.setTeam i t).cur = s.cur := rfl
@[simp] theorem State.setTeam_turn : (s.setTeam i t).turn = s.turn := rfl
@[simp] theorem State.setTeam_free : (s.setTeam i t).free = s.free := rfl
@[simp] theorem State.setTeam_opNext : (s.setTeam i t).opNext = s.opNext := rfl
@[simp] theorem State.setTeam_last : (s.setTeam i t).last = s.last := rfl
@[simp] theorem State.setTeam_waves : (s.setTeam i t).waves = s.waves := rfl
@[simp] theorem State.setTeam_teams : (s.setTeam i t).teams = TabOps.put s.teams i t := rfl
@[simp] theorem State.setTeam_nbs : (s.setTeam i t).nbs = s.nbs := rfl
@[simp] theorem State.setTeam_grids : (s.setTeam i t).grids = s.grids := rfl
@[simp] theorem State.setTeam_ops : (s.setTeam i t).ops = s.ops := rfl
@[simp] theorem State.setTeam_calls : (s.setTeam i t).calls = s.calls := rfl
@[simp] theorem State.setTeam_engines : (s.setTeam i t).engines = s.engines := rfl
@[simp] theorem State.setTeam_cores : (s.setTeam i t).cores = s.cores := rfl
@[simp] theorem State.setTeam_dies : (s.setTeam i t).dies = s.dies := rfl
@[simp] theorem State.setTeam_dram : (s.setTeam i t).dram = s.dram := rfl
@[simp] theorem State.setTeam_writeLog : (s.setTeam i t).writeLog = s.writeLog := rfl
@[simp] theorem State.setTeam_poisoned : (s.setTeam i t).poisoned = s.poisoned := rfl
@[simp] theorem State.setTeam_errors : (s.setTeam i t).errors = s.errors := rfl
@[simp] theorem State.setTeam_codes : (s.setTeam i t).codes = s.codes := rfl
@[simp] theorem State.setTeam_transit : (s.setTeam i t).transit = s.transit := rfl
@[simp] theorem State.setTeam_corrected : (s.setTeam i t).corrected = s.corrected := rfl
@[simp] theorem State.setTeam_msc : (s.setTeam i t).msc = s.msc := rfl
@[simp] theorem State.setTeam_owners : (s.setTeam i t).owners = s.owners := rfl
@[simp] theorem State.setTeam_pins : (s.setTeam i t).pins = s.pins := rfl
@[simp] theorem State.setTeam_tlb : (s.setTeam i t).tlb = s.tlb := rfl
@[simp] theorem State.setTeam_buckets : (s.setTeam i t).buckets = s.buckets := rfl
@[simp] theorem State.setTeam_requests : (s.setTeam i t).requests = s.requests := rfl
@[simp] theorem State.setTeam_intake : (s.setTeam i t).intake = s.intake := rfl
@[simp] theorem State.setTeam_bankQ : (s.setTeam i t).bankQ = s.bankQ := rfl
@[simp] theorem State.setTeam_links : (s.setTeam i t).links = s.links := rfl
@[simp] theorem State.setTeam_stops : (s.setTeam i t).stops = s.stops := rfl
@[simp] theorem State.setTeam_cxl : (s.setTeam i t).cxl = s.cxl := rfl
@[simp] theorem State.setTeam_windows : (s.setTeam i t).windows = s.windows := rfl
@[simp] theorem State.setTeam_interrupts : (s.setTeam i t).interrupts = s.interrupts := rfl
@[simp] theorem State.setTeam_hostData : (s.setTeam i t).hostData = s.hostData := rfl
@[simp] theorem State.setTeam_inbox : (s.setTeam i t).inbox = s.inbox := rfl
@[simp] theorem State.setTeam_vds : (s.setTeam i t).vds = s.vds := rfl
@[simp] theorem State.setTeam_queues : (s.setTeam i t).queues = s.queues := rfl
@[simp] theorem State.setTeam_policies : (s.setTeam i t).policies = s.policies := rfl
@[simp] theorem State.setTeam_compass : (s.setTeam i t).compass = s.compass := rfl
@[simp] theorem State.setTeam_polCalls : (s.setTeam i t).polCalls = s.polCalls := rfl
@[simp] theorem State.setTeam_cpCycle : (s.setTeam i t).cpCycle = s.cpCycle := rfl
@[simp] theorem State.setTeam_clock : (s.setTeam i t).clock = s.clock := rfl
@[simp] theorem State.setTeam_pickTurn : (s.setTeam i t).pickTurn = s.pickTurn := rfl
@[simp] theorem State.setTeam_picks : (s.setTeam i t).picks = s.picks := rfl
@[simp] theorem State.setTeam_nodes : (s.setTeam i t).nodes = s.nodes := rfl
@[simp] theorem State.setTeam_ownerVd : (s.setTeam i t).ownerVd = s.ownerVd := rfl
@[simp] theorem State.setTeam_collSeq : (s.setTeam i t).collSeq = s.collSeq := rfl
@[simp] theorem State.setTeam_rounds : (s.setTeam i t).rounds = s.rounds := rfl
@[simp] theorem State.setTeam_departed : (s.setTeam i t).departed = s.departed := rfl
@[simp] theorem State.setTeam_moduleNo : (s.setTeam i t).moduleNo = s.moduleNo := rfl
@[simp] theorem State.setTeam_dawn : (s.setTeam i t).dawn = s.dawn := rfl
@[simp] theorem State.setTeam_retrace : (s.setTeam i t).retrace = s.retrace := rfl
end

section
variable (s : State) (i : Nat) (g : Grid)
@[simp] theorem State.setGrid_agenda : (s.setGrid i g).agenda = s.agenda := rfl
@[simp] theorem State.setGrid_cur : (s.setGrid i g).cur = s.cur := rfl
@[simp] theorem State.setGrid_turn : (s.setGrid i g).turn = s.turn := rfl
@[simp] theorem State.setGrid_free : (s.setGrid i g).free = s.free := rfl
@[simp] theorem State.setGrid_opNext : (s.setGrid i g).opNext = s.opNext := rfl
@[simp] theorem State.setGrid_last : (s.setGrid i g).last = s.last := rfl
@[simp] theorem State.setGrid_waves : (s.setGrid i g).waves = s.waves := rfl
@[simp] theorem State.setGrid_teams : (s.setGrid i g).teams = s.teams := rfl
@[simp] theorem State.setGrid_nbs : (s.setGrid i g).nbs = s.nbs := rfl
@[simp] theorem State.setGrid_grids : (s.setGrid i g).grids = TabOps.put s.grids i g := rfl
@[simp] theorem State.setGrid_ops : (s.setGrid i g).ops = s.ops := rfl
@[simp] theorem State.setGrid_calls : (s.setGrid i g).calls = s.calls := rfl
@[simp] theorem State.setGrid_engines : (s.setGrid i g).engines = s.engines := rfl
@[simp] theorem State.setGrid_cores : (s.setGrid i g).cores = s.cores := rfl
@[simp] theorem State.setGrid_dies : (s.setGrid i g).dies = s.dies := rfl
@[simp] theorem State.setGrid_dram : (s.setGrid i g).dram = s.dram := rfl
@[simp] theorem State.setGrid_writeLog : (s.setGrid i g).writeLog = s.writeLog := rfl
@[simp] theorem State.setGrid_poisoned : (s.setGrid i g).poisoned = s.poisoned := rfl
@[simp] theorem State.setGrid_errors : (s.setGrid i g).errors = s.errors := rfl
@[simp] theorem State.setGrid_codes : (s.setGrid i g).codes = s.codes := rfl
@[simp] theorem State.setGrid_transit : (s.setGrid i g).transit = s.transit := rfl
@[simp] theorem State.setGrid_corrected : (s.setGrid i g).corrected = s.corrected := rfl
@[simp] theorem State.setGrid_msc : (s.setGrid i g).msc = s.msc := rfl
@[simp] theorem State.setGrid_owners : (s.setGrid i g).owners = s.owners := rfl
@[simp] theorem State.setGrid_pins : (s.setGrid i g).pins = s.pins := rfl
@[simp] theorem State.setGrid_tlb : (s.setGrid i g).tlb = s.tlb := rfl
@[simp] theorem State.setGrid_buckets : (s.setGrid i g).buckets = s.buckets := rfl
@[simp] theorem State.setGrid_requests : (s.setGrid i g).requests = s.requests := rfl
@[simp] theorem State.setGrid_intake : (s.setGrid i g).intake = s.intake := rfl
@[simp] theorem State.setGrid_bankQ : (s.setGrid i g).bankQ = s.bankQ := rfl
@[simp] theorem State.setGrid_links : (s.setGrid i g).links = s.links := rfl
@[simp] theorem State.setGrid_stops : (s.setGrid i g).stops = s.stops := rfl
@[simp] theorem State.setGrid_cxl : (s.setGrid i g).cxl = s.cxl := rfl
@[simp] theorem State.setGrid_windows : (s.setGrid i g).windows = s.windows := rfl
@[simp] theorem State.setGrid_interrupts : (s.setGrid i g).interrupts = s.interrupts := rfl
@[simp] theorem State.setGrid_hostData : (s.setGrid i g).hostData = s.hostData := rfl
@[simp] theorem State.setGrid_inbox : (s.setGrid i g).inbox = s.inbox := rfl
@[simp] theorem State.setGrid_vds : (s.setGrid i g).vds = s.vds := rfl
@[simp] theorem State.setGrid_queues : (s.setGrid i g).queues = s.queues := rfl
@[simp] theorem State.setGrid_policies : (s.setGrid i g).policies = s.policies := rfl
@[simp] theorem State.setGrid_compass : (s.setGrid i g).compass = s.compass := rfl
@[simp] theorem State.setGrid_polCalls : (s.setGrid i g).polCalls = s.polCalls := rfl
@[simp] theorem State.setGrid_cpCycle : (s.setGrid i g).cpCycle = s.cpCycle := rfl
@[simp] theorem State.setGrid_clock : (s.setGrid i g).clock = s.clock := rfl
@[simp] theorem State.setGrid_pickTurn : (s.setGrid i g).pickTurn = s.pickTurn := rfl
@[simp] theorem State.setGrid_picks : (s.setGrid i g).picks = s.picks := rfl
@[simp] theorem State.setGrid_nodes : (s.setGrid i g).nodes = s.nodes := rfl
@[simp] theorem State.setGrid_ownerVd : (s.setGrid i g).ownerVd = s.ownerVd := rfl
@[simp] theorem State.setGrid_collSeq : (s.setGrid i g).collSeq = s.collSeq := rfl
@[simp] theorem State.setGrid_rounds : (s.setGrid i g).rounds = s.rounds := rfl
@[simp] theorem State.setGrid_departed : (s.setGrid i g).departed = s.departed := rfl
@[simp] theorem State.setGrid_moduleNo : (s.setGrid i g).moduleNo = s.moduleNo := rfl
@[simp] theorem State.setGrid_dawn : (s.setGrid i g).dawn = s.dawn := rfl
@[simp] theorem State.setGrid_retrace : (s.setGrid i g).retrace = s.retrace := rfl
end

section
variable (s : State) (k : Nat) (c : Core)
@[simp] theorem State.setCore_agenda : (s.setCore k c).agenda = s.agenda := rfl
@[simp] theorem State.setCore_cur : (s.setCore k c).cur = s.cur := rfl
@[simp] theorem State.setCore_turn : (s.setCore k c).turn = s.turn := rfl
@[simp] theorem State.setCore_free : (s.setCore k c).free = s.free := rfl
@[simp] theorem State.setCore_opNext : (s.setCore k c).opNext = s.opNext := rfl
@[simp] theorem State.setCore_last : (s.setCore k c).last = s.last := rfl
@[simp] theorem State.setCore_waves : (s.setCore k c).waves = s.waves := rfl
@[simp] theorem State.setCore_teams : (s.setCore k c).teams = s.teams := rfl
@[simp] theorem State.setCore_nbs : (s.setCore k c).nbs = s.nbs := rfl
@[simp] theorem State.setCore_grids : (s.setCore k c).grids = s.grids := rfl
@[simp] theorem State.setCore_ops : (s.setCore k c).ops = s.ops := rfl
@[simp] theorem State.setCore_calls : (s.setCore k c).calls = s.calls := rfl
@[simp] theorem State.setCore_engines : (s.setCore k c).engines = s.engines := rfl
@[simp] theorem State.setCore_cores : (s.setCore k c).cores = TabOps.put s.cores k c := rfl
@[simp] theorem State.setCore_dies : (s.setCore k c).dies = s.dies := rfl
@[simp] theorem State.setCore_dram : (s.setCore k c).dram = s.dram := rfl
@[simp] theorem State.setCore_writeLog : (s.setCore k c).writeLog = s.writeLog := rfl
@[simp] theorem State.setCore_poisoned : (s.setCore k c).poisoned = s.poisoned := rfl
@[simp] theorem State.setCore_errors : (s.setCore k c).errors = s.errors := rfl
@[simp] theorem State.setCore_codes : (s.setCore k c).codes = s.codes := rfl
@[simp] theorem State.setCore_transit : (s.setCore k c).transit = s.transit := rfl
@[simp] theorem State.setCore_corrected : (s.setCore k c).corrected = s.corrected := rfl
@[simp] theorem State.setCore_msc : (s.setCore k c).msc = s.msc := rfl
@[simp] theorem State.setCore_owners : (s.setCore k c).owners = s.owners := rfl
@[simp] theorem State.setCore_pins : (s.setCore k c).pins = s.pins := rfl
@[simp] theorem State.setCore_tlb : (s.setCore k c).tlb = s.tlb := rfl
@[simp] theorem State.setCore_buckets : (s.setCore k c).buckets = s.buckets := rfl
@[simp] theorem State.setCore_requests : (s.setCore k c).requests = s.requests := rfl
@[simp] theorem State.setCore_intake : (s.setCore k c).intake = s.intake := rfl
@[simp] theorem State.setCore_bankQ : (s.setCore k c).bankQ = s.bankQ := rfl
@[simp] theorem State.setCore_links : (s.setCore k c).links = s.links := rfl
@[simp] theorem State.setCore_stops : (s.setCore k c).stops = s.stops := rfl
@[simp] theorem State.setCore_cxl : (s.setCore k c).cxl = s.cxl := rfl
@[simp] theorem State.setCore_windows : (s.setCore k c).windows = s.windows := rfl
@[simp] theorem State.setCore_interrupts : (s.setCore k c).interrupts = s.interrupts := rfl
@[simp] theorem State.setCore_hostData : (s.setCore k c).hostData = s.hostData := rfl
@[simp] theorem State.setCore_inbox : (s.setCore k c).inbox = s.inbox := rfl
@[simp] theorem State.setCore_vds : (s.setCore k c).vds = s.vds := rfl
@[simp] theorem State.setCore_queues : (s.setCore k c).queues = s.queues := rfl
@[simp] theorem State.setCore_policies : (s.setCore k c).policies = s.policies := rfl
@[simp] theorem State.setCore_compass : (s.setCore k c).compass = s.compass := rfl
@[simp] theorem State.setCore_polCalls : (s.setCore k c).polCalls = s.polCalls := rfl
@[simp] theorem State.setCore_cpCycle : (s.setCore k c).cpCycle = s.cpCycle := rfl
@[simp] theorem State.setCore_clock : (s.setCore k c).clock = s.clock := rfl
@[simp] theorem State.setCore_pickTurn : (s.setCore k c).pickTurn = s.pickTurn := rfl
@[simp] theorem State.setCore_picks : (s.setCore k c).picks = s.picks := rfl
@[simp] theorem State.setCore_nodes : (s.setCore k c).nodes = s.nodes := rfl
@[simp] theorem State.setCore_ownerVd : (s.setCore k c).ownerVd = s.ownerVd := rfl
@[simp] theorem State.setCore_collSeq : (s.setCore k c).collSeq = s.collSeq := rfl
@[simp] theorem State.setCore_rounds : (s.setCore k c).rounds = s.rounds := rfl
@[simp] theorem State.setCore_departed : (s.setCore k c).departed = s.departed := rfl
@[simp] theorem State.setCore_moduleNo : (s.setCore k c).moduleNo = s.moduleNo := rfl
@[simp] theorem State.setCore_dawn : (s.setCore k c).dawn = s.dawn := rfl
@[simp] theorem State.setCore_retrace : (s.setCore k c).retrace = s.retrace := rfl
end

section
variable (s : State) (k : Nat) (l : MscLine)
@[simp] theorem State.setMsc_agenda : (s.setMsc k l).agenda = s.agenda := rfl
@[simp] theorem State.setMsc_cur : (s.setMsc k l).cur = s.cur := rfl
@[simp] theorem State.setMsc_turn : (s.setMsc k l).turn = s.turn := rfl
@[simp] theorem State.setMsc_free : (s.setMsc k l).free = s.free := rfl
@[simp] theorem State.setMsc_opNext : (s.setMsc k l).opNext = s.opNext := rfl
@[simp] theorem State.setMsc_last : (s.setMsc k l).last = s.last := rfl
@[simp] theorem State.setMsc_waves : (s.setMsc k l).waves = s.waves := rfl
@[simp] theorem State.setMsc_teams : (s.setMsc k l).teams = s.teams := rfl
@[simp] theorem State.setMsc_nbs : (s.setMsc k l).nbs = s.nbs := rfl
@[simp] theorem State.setMsc_grids : (s.setMsc k l).grids = s.grids := rfl
@[simp] theorem State.setMsc_ops : (s.setMsc k l).ops = s.ops := rfl
@[simp] theorem State.setMsc_calls : (s.setMsc k l).calls = s.calls := rfl
@[simp] theorem State.setMsc_engines : (s.setMsc k l).engines = s.engines := rfl
@[simp] theorem State.setMsc_cores : (s.setMsc k l).cores = s.cores := rfl
@[simp] theorem State.setMsc_dies : (s.setMsc k l).dies = s.dies := rfl
@[simp] theorem State.setMsc_dram : (s.setMsc k l).dram = s.dram := rfl
@[simp] theorem State.setMsc_writeLog : (s.setMsc k l).writeLog = s.writeLog := rfl
@[simp] theorem State.setMsc_poisoned : (s.setMsc k l).poisoned = s.poisoned := rfl
@[simp] theorem State.setMsc_errors : (s.setMsc k l).errors = s.errors := rfl
@[simp] theorem State.setMsc_codes : (s.setMsc k l).codes = s.codes := rfl
@[simp] theorem State.setMsc_transit : (s.setMsc k l).transit = s.transit := rfl
@[simp] theorem State.setMsc_corrected : (s.setMsc k l).corrected = s.corrected := rfl
@[simp] theorem State.setMsc_msc : (s.setMsc k l).msc = TabOps.put s.msc k l := rfl
@[simp] theorem State.setMsc_owners : (s.setMsc k l).owners = s.owners := rfl
@[simp] theorem State.setMsc_pins : (s.setMsc k l).pins = s.pins := rfl
@[simp] theorem State.setMsc_tlb : (s.setMsc k l).tlb = s.tlb := rfl
@[simp] theorem State.setMsc_buckets : (s.setMsc k l).buckets = s.buckets := rfl
@[simp] theorem State.setMsc_requests : (s.setMsc k l).requests = s.requests := rfl
@[simp] theorem State.setMsc_intake : (s.setMsc k l).intake = s.intake := rfl
@[simp] theorem State.setMsc_bankQ : (s.setMsc k l).bankQ = s.bankQ := rfl
@[simp] theorem State.setMsc_links : (s.setMsc k l).links = s.links := rfl
@[simp] theorem State.setMsc_stops : (s.setMsc k l).stops = s.stops := rfl
@[simp] theorem State.setMsc_cxl : (s.setMsc k l).cxl = s.cxl := rfl
@[simp] theorem State.setMsc_windows : (s.setMsc k l).windows = s.windows := rfl
@[simp] theorem State.setMsc_interrupts : (s.setMsc k l).interrupts = s.interrupts := rfl
@[simp] theorem State.setMsc_hostData : (s.setMsc k l).hostData = s.hostData := rfl
@[simp] theorem State.setMsc_inbox : (s.setMsc k l).inbox = s.inbox := rfl
@[simp] theorem State.setMsc_vds : (s.setMsc k l).vds = s.vds := rfl
@[simp] theorem State.setMsc_queues : (s.setMsc k l).queues = s.queues := rfl
@[simp] theorem State.setMsc_policies : (s.setMsc k l).policies = s.policies := rfl
@[simp] theorem State.setMsc_compass : (s.setMsc k l).compass = s.compass := rfl
@[simp] theorem State.setMsc_polCalls : (s.setMsc k l).polCalls = s.polCalls := rfl
@[simp] theorem State.setMsc_cpCycle : (s.setMsc k l).cpCycle = s.cpCycle := rfl
@[simp] theorem State.setMsc_clock : (s.setMsc k l).clock = s.clock := rfl
@[simp] theorem State.setMsc_pickTurn : (s.setMsc k l).pickTurn = s.pickTurn := rfl
@[simp] theorem State.setMsc_picks : (s.setMsc k l).picks = s.picks := rfl
@[simp] theorem State.setMsc_nodes : (s.setMsc k l).nodes = s.nodes := rfl
@[simp] theorem State.setMsc_ownerVd : (s.setMsc k l).ownerVd = s.ownerVd := rfl
@[simp] theorem State.setMsc_collSeq : (s.setMsc k l).collSeq = s.collSeq := rfl
@[simp] theorem State.setMsc_rounds : (s.setMsc k l).rounds = s.rounds := rfl
@[simp] theorem State.setMsc_departed : (s.setMsc k l).departed = s.departed := rfl
@[simp] theorem State.setMsc_moduleNo : (s.setMsc k l).moduleNo = s.moduleNo := rfl
@[simp] theorem State.setMsc_dawn : (s.setMsc k l).dawn = s.dawn := rfl
@[simp] theorem State.setMsc_retrace : (s.setMsc k l).retrace = s.retrace := rfl
end

section
variable (w : Wave) (i : Nat) (f : Fragment)
@[simp] theorem Wave.setFrag_grid : (w.setFrag i f).grid = w.grid := rfl
@[simp] theorem Wave.setFrag_nb : (w.setFrag i f).nb = w.nb := rfl
@[simp] theorem Wave.setFrag_team : (w.setFrag i f).team = w.team := rfl
@[simp] theorem Wave.setFrag_idx : (w.setFrag i f).idx = w.idx := rfl
@[simp] theorem Wave.setFrag_width : (w.setFrag i f).width = w.width := rfl
@[simp] theorem Wave.setFrag_life : (w.setFrag i f).life = w.life := rfl
@[simp] theorem Wave.setFrag_handle : (w.setFrag i f).handle = w.handle := rfl
@[simp] theorem Wave.setFrag_issueDie : (w.setFrag i f).issueDie = w.issueDie := rfl
@[simp] theorem Wave.setFrag_die : (w.setFrag i f).die = w.die := rfl
@[simp] theorem Wave.setFrag_core : (w.setFrag i f).core = w.core := rfl
@[simp] theorem Wave.setFrag_slot : (w.setFrag i f).slot = w.slot := rfl
@[simp] theorem Wave.setFrag_nv : (w.setFrag i f).nv = w.nv := rfl
@[simp] theorem Wave.setFrag_ns : (w.setFrag i f).ns = w.ns := rfl
@[simp] theorem Wave.setFrag_launchG : (w.setFrag i f).launchG = w.launchG := rfl
@[simp] theorem Wave.setFrag_sregs : (w.setFrag i f).sregs = w.sregs := rfl
@[simp] theorem Wave.setFrag_vregs : (w.setFrag i f).vregs = w.vregs := rfl
@[simp] theorem Wave.setFrag_latches : (w.setFrag i f).latches = w.latches := rfl
@[simp] theorem Wave.setFrag_chainFrag : (w.setFrag i f).chainFrag = w.chainFrag := rfl
@[simp] theorem Wave.setFrag_chainDis : (w.setFrag i f).chainDis = w.chainDis := rfl
@[simp] theorem Wave.setFrag_alts : (w.setFrag i f).alts = w.alts := rfl
@[simp] theorem Wave.setFrag_faults : (w.setFrag i f).faults = w.faults := rfl
@[simp] theorem Wave.setFrag_doneRegs : (w.setFrag i f).doneRegs = w.doneRegs := rfl
@[simp] theorem Wave.setFrag_flg : (w.setFrag i f).flg = w.flg := rfl
@[simp] theorem Wave.setFrag_aflg : (w.setFrag i f).aflg = w.aflg := rfl
@[simp] theorem Wave.setFrag_gst : (w.setFrag i f).gst = w.gst := rfl
@[simp] theorem Wave.setFrag_egNext : (w.setFrag i f).egNext = w.egNext := rfl
@[simp] theorem Wave.setFrag_cause : (w.setFrag i f).cause = w.cause := rfl
@[simp] theorem Wave.setFrag_tpc : (w.setFrag i f).tpc = w.tpc := rfl
@[simp] theorem Wave.setFrag_tmask : (w.setFrag i f).tmask = w.tmask := rfl
@[simp] theorem Wave.setFrag_tinfo : (w.setFrag i f).tinfo = w.tinfo := rfl
@[simp] theorem Wave.setFrag_ilen : (w.setFrag i f).ilen = w.ilen := rfl
@[simp] theorem Wave.setFrag_inh : (w.setFrag i f).inh = w.inh := rfl
@[simp] theorem Wave.setFrag_drain : (w.setFrag i f).drain = w.drain := rfl
@[simp] theorem Wave.setFrag_evpend : (w.setFrag i f).evpend = w.evpend := rfl
@[simp] theorem Wave.setFrag_evmask : (w.setFrag i f).evmask = w.evmask := rfl
@[simp] theorem Wave.setFrag_maskNew : (w.setFrag i f).maskNew = w.maskNew := rfl
@[simp] theorem Wave.setFrag_maskAt : (w.setFrag i f).maskAt = w.maskAt := rfl
@[simp] theorem Wave.setFrag_evv : (w.setFrag i f).evv = w.evv := rfl
@[simp] theorem Wave.setFrag_binds : (w.setFrag i f).binds = w.binds := rfl
@[simp] theorem Wave.setFrag_counts : (w.setFrag i f).counts = w.counts := rfl
@[simp] theorem Wave.setFrag_tokScope : (w.setFrag i f).tokScope = w.tokScope := rfl
@[simp] theorem Wave.setFrag_evovf : (w.setFrag i f).evovf = w.evovf := rfl
@[simp] theorem Wave.setFrag_frags : (w.setFrag i f).frags = setAt w.frags i (some f) := rfl
@[simp] theorem Wave.setFrag_recs : (w.setFrag i f).recs = w.recs := rfl
@[simp] theorem Wave.setFrag_origin : (w.setFrag i f).origin = w.origin := rfl
@[simp] theorem Wave.setFrag_ginj : (w.setFrag i f).ginj = w.ginj := rfl
@[simp] theorem Wave.setFrag_batches : (w.setFrag i f).batches = w.batches := rfl
@[simp] theorem Wave.setFrag_tileBad : (w.setFrag i f).tileBad = w.tileBad := rfl
@[simp] theorem Wave.setFrag_tileOpen : (w.setFrag i f).tileOpen = w.tileOpen := rfl
@[simp] theorem Wave.setFrag_pendRegs : (w.setFrag i f).pendRegs = w.pendRegs := rfl
@[simp] theorem Wave.setFrag_nbarRec : (w.setFrag i f).nbarRec = w.nbarRec := rfl
@[simp] theorem Wave.setFrag_issued : (w.setFrag i f).issued = w.issued := rfl
@[simp] theorem Wave.setFrag_stopAt : (w.setFrag i f).stopAt = w.stopAt := rfl
@[simp] theorem Wave.setFrag_marked : (w.setFrag i f).marked = w.marked := rfl
end

section
variable (w : Wave) (i : Nat)
@[simp] theorem Wave.dropFrag_grid : (w.dropFrag i).grid = w.grid := rfl
@[simp] theorem Wave.dropFrag_nb : (w.dropFrag i).nb = w.nb := rfl
@[simp] theorem Wave.dropFrag_team : (w.dropFrag i).team = w.team := rfl
@[simp] theorem Wave.dropFrag_idx : (w.dropFrag i).idx = w.idx := rfl
@[simp] theorem Wave.dropFrag_width : (w.dropFrag i).width = w.width := rfl
@[simp] theorem Wave.dropFrag_life : (w.dropFrag i).life = w.life := rfl
@[simp] theorem Wave.dropFrag_handle : (w.dropFrag i).handle = w.handle := rfl
@[simp] theorem Wave.dropFrag_issueDie : (w.dropFrag i).issueDie = w.issueDie := rfl
@[simp] theorem Wave.dropFrag_die : (w.dropFrag i).die = w.die := rfl
@[simp] theorem Wave.dropFrag_core : (w.dropFrag i).core = w.core := rfl
@[simp] theorem Wave.dropFrag_slot : (w.dropFrag i).slot = w.slot := rfl
@[simp] theorem Wave.dropFrag_nv : (w.dropFrag i).nv = w.nv := rfl
@[simp] theorem Wave.dropFrag_ns : (w.dropFrag i).ns = w.ns := rfl
@[simp] theorem Wave.dropFrag_launchG : (w.dropFrag i).launchG = w.launchG := rfl
@[simp] theorem Wave.dropFrag_sregs : (w.dropFrag i).sregs = w.sregs := rfl
@[simp] theorem Wave.dropFrag_vregs : (w.dropFrag i).vregs = w.vregs := rfl
@[simp] theorem Wave.dropFrag_latches : (w.dropFrag i).latches = w.latches := rfl
@[simp] theorem Wave.dropFrag_chainFrag : (w.dropFrag i).chainFrag = w.chainFrag := rfl
@[simp] theorem Wave.dropFrag_chainDis : (w.dropFrag i).chainDis = w.chainDis := rfl
@[simp] theorem Wave.dropFrag_alts : (w.dropFrag i).alts = w.alts := rfl
@[simp] theorem Wave.dropFrag_faults : (w.dropFrag i).faults = w.faults := rfl
@[simp] theorem Wave.dropFrag_doneRegs : (w.dropFrag i).doneRegs = w.doneRegs := rfl
@[simp] theorem Wave.dropFrag_flg : (w.dropFrag i).flg = w.flg := rfl
@[simp] theorem Wave.dropFrag_aflg : (w.dropFrag i).aflg = w.aflg := rfl
@[simp] theorem Wave.dropFrag_gst : (w.dropFrag i).gst = w.gst := rfl
@[simp] theorem Wave.dropFrag_egNext : (w.dropFrag i).egNext = w.egNext := rfl
@[simp] theorem Wave.dropFrag_cause : (w.dropFrag i).cause = w.cause := rfl
@[simp] theorem Wave.dropFrag_tpc : (w.dropFrag i).tpc = w.tpc := rfl
@[simp] theorem Wave.dropFrag_tmask : (w.dropFrag i).tmask = w.tmask := rfl
@[simp] theorem Wave.dropFrag_tinfo : (w.dropFrag i).tinfo = w.tinfo := rfl
@[simp] theorem Wave.dropFrag_ilen : (w.dropFrag i).ilen = w.ilen := rfl
@[simp] theorem Wave.dropFrag_inh : (w.dropFrag i).inh = w.inh := rfl
@[simp] theorem Wave.dropFrag_drain : (w.dropFrag i).drain = w.drain := rfl
@[simp] theorem Wave.dropFrag_evpend : (w.dropFrag i).evpend = w.evpend := rfl
@[simp] theorem Wave.dropFrag_evmask : (w.dropFrag i).evmask = w.evmask := rfl
@[simp] theorem Wave.dropFrag_maskNew : (w.dropFrag i).maskNew = w.maskNew := rfl
@[simp] theorem Wave.dropFrag_maskAt : (w.dropFrag i).maskAt = w.maskAt := rfl
@[simp] theorem Wave.dropFrag_evv : (w.dropFrag i).evv = w.evv := rfl
@[simp] theorem Wave.dropFrag_binds : (w.dropFrag i).binds = w.binds := rfl
@[simp] theorem Wave.dropFrag_counts : (w.dropFrag i).counts = w.counts := rfl
@[simp] theorem Wave.dropFrag_tokScope : (w.dropFrag i).tokScope = w.tokScope := rfl
@[simp] theorem Wave.dropFrag_evovf : (w.dropFrag i).evovf = w.evovf := rfl
@[simp] theorem Wave.dropFrag_frags : (w.dropFrag i).frags = setAt w.frags i none := rfl
@[simp] theorem Wave.dropFrag_recs : (w.dropFrag i).recs = w.recs := rfl
@[simp] theorem Wave.dropFrag_origin : (w.dropFrag i).origin = w.origin := rfl
@[simp] theorem Wave.dropFrag_ginj : (w.dropFrag i).ginj = w.ginj := rfl
@[simp] theorem Wave.dropFrag_batches : (w.dropFrag i).batches = w.batches := rfl
@[simp] theorem Wave.dropFrag_tileBad : (w.dropFrag i).tileBad = w.tileBad := rfl
@[simp] theorem Wave.dropFrag_tileOpen : (w.dropFrag i).tileOpen = w.tileOpen := rfl
@[simp] theorem Wave.dropFrag_pendRegs : (w.dropFrag i).pendRegs = w.pendRegs := rfl
@[simp] theorem Wave.dropFrag_nbarRec : (w.dropFrag i).nbarRec = w.nbarRec := rfl
@[simp] theorem Wave.dropFrag_issued : (w.dropFrag i).issued = w.issued := rfl
@[simp] theorem Wave.dropFrag_stopAt : (w.dropFrag i).stopAt = w.stopAt := rfl
@[simp] theorem Wave.dropFrag_marked : (w.dropFrag i).marked = w.marked := rfl
end

section
variable (w : Wave) (fl : BitVec 6)
@[simp] theorem Wave.raiseFlags_grid : (w.raiseFlags fl).grid = w.grid := rfl
@[simp] theorem Wave.raiseFlags_nb : (w.raiseFlags fl).nb = w.nb := rfl
@[simp] theorem Wave.raiseFlags_team : (w.raiseFlags fl).team = w.team := rfl
@[simp] theorem Wave.raiseFlags_idx : (w.raiseFlags fl).idx = w.idx := rfl
@[simp] theorem Wave.raiseFlags_width : (w.raiseFlags fl).width = w.width := rfl
@[simp] theorem Wave.raiseFlags_life : (w.raiseFlags fl).life = w.life := rfl
@[simp] theorem Wave.raiseFlags_handle : (w.raiseFlags fl).handle = w.handle := rfl
@[simp] theorem Wave.raiseFlags_issueDie : (w.raiseFlags fl).issueDie = w.issueDie := rfl
@[simp] theorem Wave.raiseFlags_die : (w.raiseFlags fl).die = w.die := rfl
@[simp] theorem Wave.raiseFlags_core : (w.raiseFlags fl).core = w.core := rfl
@[simp] theorem Wave.raiseFlags_slot : (w.raiseFlags fl).slot = w.slot := rfl
@[simp] theorem Wave.raiseFlags_nv : (w.raiseFlags fl).nv = w.nv := rfl
@[simp] theorem Wave.raiseFlags_ns : (w.raiseFlags fl).ns = w.ns := rfl
@[simp] theorem Wave.raiseFlags_launchG : (w.raiseFlags fl).launchG = w.launchG := rfl
@[simp] theorem Wave.raiseFlags_sregs : (w.raiseFlags fl).sregs = w.sregs := rfl
@[simp] theorem Wave.raiseFlags_vregs : (w.raiseFlags fl).vregs = w.vregs := rfl
@[simp] theorem Wave.raiseFlags_latches : (w.raiseFlags fl).latches = w.latches := rfl
@[simp] theorem Wave.raiseFlags_chainFrag : (w.raiseFlags fl).chainFrag = w.chainFrag := rfl
@[simp] theorem Wave.raiseFlags_chainDis : (w.raiseFlags fl).chainDis = w.chainDis := rfl
@[simp] theorem Wave.raiseFlags_alts : (w.raiseFlags fl).alts = w.alts := rfl
@[simp] theorem Wave.raiseFlags_faults : (w.raiseFlags fl).faults = w.faults := rfl
@[simp] theorem Wave.raiseFlags_doneRegs : (w.raiseFlags fl).doneRegs = w.doneRegs := rfl
@[simp] theorem Wave.raiseFlags_flg : (w.raiseFlags fl).flg = w.flg := rfl
@[simp] theorem Wave.raiseFlags_aflg : (w.raiseFlags fl).aflg = w.aflg ||| fl.zeroExtend 14 := rfl
@[simp] theorem Wave.raiseFlags_gst : (w.raiseFlags fl).gst = w.gst := rfl
@[simp] theorem Wave.raiseFlags_egNext : (w.raiseFlags fl).egNext = w.egNext := rfl
@[simp] theorem Wave.raiseFlags_cause : (w.raiseFlags fl).cause = w.cause := rfl
@[simp] theorem Wave.raiseFlags_tpc : (w.raiseFlags fl).tpc = w.tpc := rfl
@[simp] theorem Wave.raiseFlags_tmask : (w.raiseFlags fl).tmask = w.tmask := rfl
@[simp] theorem Wave.raiseFlags_tinfo : (w.raiseFlags fl).tinfo = w.tinfo := rfl
@[simp] theorem Wave.raiseFlags_ilen : (w.raiseFlags fl).ilen = w.ilen := rfl
@[simp] theorem Wave.raiseFlags_inh : (w.raiseFlags fl).inh = w.inh := rfl
@[simp] theorem Wave.raiseFlags_drain : (w.raiseFlags fl).drain = w.drain := rfl
@[simp] theorem Wave.raiseFlags_evpend : (w.raiseFlags fl).evpend = w.evpend := rfl
@[simp] theorem Wave.raiseFlags_evmask : (w.raiseFlags fl).evmask = w.evmask := rfl
@[simp] theorem Wave.raiseFlags_maskNew : (w.raiseFlags fl).maskNew = w.maskNew := rfl
@[simp] theorem Wave.raiseFlags_maskAt : (w.raiseFlags fl).maskAt = w.maskAt := rfl
@[simp] theorem Wave.raiseFlags_evv : (w.raiseFlags fl).evv = w.evv := rfl
@[simp] theorem Wave.raiseFlags_binds : (w.raiseFlags fl).binds = w.binds := rfl
@[simp] theorem Wave.raiseFlags_counts : (w.raiseFlags fl).counts = w.counts := rfl
@[simp] theorem Wave.raiseFlags_tokScope : (w.raiseFlags fl).tokScope = w.tokScope := rfl
@[simp] theorem Wave.raiseFlags_evovf : (w.raiseFlags fl).evovf = w.evovf := rfl
@[simp] theorem Wave.raiseFlags_frags : (w.raiseFlags fl).frags = w.frags := rfl
@[simp] theorem Wave.raiseFlags_recs : (w.raiseFlags fl).recs = w.recs := rfl
@[simp] theorem Wave.raiseFlags_origin : (w.raiseFlags fl).origin = w.origin := rfl
@[simp] theorem Wave.raiseFlags_ginj : (w.raiseFlags fl).ginj = w.ginj := rfl
@[simp] theorem Wave.raiseFlags_batches : (w.raiseFlags fl).batches = w.batches := rfl
@[simp] theorem Wave.raiseFlags_tileBad : (w.raiseFlags fl).tileBad = w.tileBad := rfl
@[simp] theorem Wave.raiseFlags_tileOpen : (w.raiseFlags fl).tileOpen = w.tileOpen := rfl
@[simp] theorem Wave.raiseFlags_pendRegs : (w.raiseFlags fl).pendRegs = w.pendRegs := rfl
@[simp] theorem Wave.raiseFlags_nbarRec : (w.raiseFlags fl).nbarRec = w.nbarRec := rfl
@[simp] theorem Wave.raiseFlags_issued : (w.raiseFlags fl).issued = w.issued := rfl
@[simp] theorem Wave.raiseFlags_stopAt : (w.raiseFlags fl).stopAt = w.stopAt := rfl
@[simp] theorem Wave.raiseFlags_marked : (w.raiseFlags fl).marked = w.marked := rfl
end

/-! ### An updated table -/

@[simp] theorem State.core_setWave (s : State) (i k : Nat) (w : Wave) : (s.setWave i w).core k = s.core k := rfl
@[simp] theorem State.homeByte_setWave (s : State) (i a : Nat) (w : Wave) : (s.setWave i w).homeByte a = s.homeByte a := rfl
@[simp] theorem State.homeByte_setTeam (s : State) (i a : Nat) (t : Team) : (s.setTeam i t).homeByte a = s.homeByte a := rfl
@[simp] theorem State.homeByte_setGrid (s : State) (i a : Nat) (g : Grid) : (s.setGrid i g).homeByte a = s.homeByte a := rfl
theorem State.setWave_setWave (s : State) (i : Nat) (v w : Wave) : (s.setWave i v).setWave i w = s.setWave i w := by
  simp [State.setWave, TabOps.put_put]

end Sys2Proof.Machine
end

