-- ==== Sys2Proof/Laws/Ops.lean ====
section
/-! SUPPORT. One lemma per shared operation over waves: what the start of an instruction, its end, a register write and
a repeated run do. -/

namespace Sys2Proof.Machine

theorem setAt_eq_set {α : Type} (xs : List α) (i : Nat) (v : α) : setAt xs i v = xs.set i v := by
  induction xs generalizing i with
  | nil => rfl
  | cons x xs ih => cases i <;> simp [setAt, ih]

/-! ### The start of an instruction -/

theorem withCtx_next {s : State} {c : Ctx} (h : s.ctx? = some c) (k : Ctx → State) : withCtx s k = .next (k c) := by
  simp [withCtx, h]

theorem withCtx_cases {s t : State} {k : Ctx → State} (h : withCtx s k = .next t) :
    ∃ c, s.ctx? = some c ∧ t = k c := by
  unfold withCtx at h
  split at h
  · exact ⟨_, ‹_›, by simpa using h.symm⟩
  · cases h

theorem withEnd_next {s : State} {c : Ctx} (h : s.ctx? = some c) (k : Ctx → State) :
    withEnd s k = .next (k c.ended) := withCtx_next h _

theorem ctx_cur {s : State} {c : Ctx} (h : s.ctx? = some c) :
    TabOps.find? s.waves c.wid = some c.w ∧ c.w.frag? c.fid = some c.f ∧ TabOps.find? s.teams c.w.team = some c.t
      ∧ TabOps.find? s.grids c.w.grid = some c.g := by
  unfold State.ctx? at h
  split at h
  · cases h
  · split at h
    · cases h
    · split at h
      · cases h; exact ⟨‹_›, ‹_›, ‹_›, ‹_›⟩
      · cases h

@[simp] theorem Wave.applyEg_ns (w : Wave) : w.applyEg.ns = w.ns := by unfold applyEg; split <;> rfl
@[simp] theorem Wave.applyEg_nv (w : Wave) : w.applyEg.nv = w.nv := by unfold applyEg; split <;> rfl
@[simp] theorem Wave.applyEg_sregs (w : Wave) : w.applyEg.sregs = w.sregs := by unfold applyEg; split <;> rfl
@[simp] theorem Wave.applyEg_vregs (w : Wave) : w.applyEg.vregs = w.vregs := by unfold applyEg; split <;> rfl
@[simp] theorem Wave.applyEg_pendRegs (w : Wave) : w.applyEg.pendRegs = w.pendRegs := by unfold applyEg; split <;> rfl
@[simp] theorem Wave.applyEg_frags (w : Wave) : w.applyEg.frags = w.frags := by unfold applyEg; split <;> rfl
@[simp] theorem Wave.applyEg_width (w : Wave) : w.applyEg.width = w.width := by unfold applyEg; split <;> rfl
@[simp] theorem Wave.applyEg_flg (w : Wave) : w.applyEg.flg = w.flg := by unfold applyEg; split <;> rfl
@[simp] theorem Wave.applyEg_ginj (w : Wave) : w.applyEg.ginj = w.ginj := by unfold applyEg; split <;> rfl
@[simp] theorem Wave.applyEg_gst (w : Wave) : w.applyEg.gst = w.gstNow := by
  unfold applyEg gstNow; split <;> simp [*]
@[simp] theorem Wave.applyEg_eg (w : Wave) : w.applyEg.eg = w.egNow := by simp [Wave.eg, Wave.egNow]
@[simp] theorem Wave.applyEg_s (w : Wave) (r : SReg) : w.applyEg.s r = w.s r := by simp [Wave.s]
@[simp] theorem Wave.applyEg_stag (w : Wave) (r : SReg) : w.applyEg.stag r = w.stag r := by simp [Wave.stag]
@[simp] theorem Wave.applyEg_v (w : Wave) (r : Nat) : w.applyEg.v r = w.v r := by simp [Wave.v]

@[simp] theorem Wave.closed_s (w : Wave) (r : SReg) : w.closed.s r = w.s r := rfl
@[simp] theorem Wave.closed_stag (w : Wave) (r : SReg) : w.closed.stag r = w.stag r := rfl
@[simp] theorem Wave.closed_v (w : Wave) (r : Nat) : w.closed.v r = w.v r := rfl
@[simp] theorem Wave.closed_eg (w : Wave) : w.closed.eg = w.egNow := rfl

theorem Wave.endChain_eq_closed (w : Wave) : w.endChain = w.closed := by
  unfold endChain closed applyEg gstNow; split <;> simp_all

@[simp] theorem Wave.applyEg_egNext (w : Wave) : w.applyEg.egNext = none := by
  unfold applyEg; split <;> simp [*]

theorem Wave.applyEg_closed (w : Wave) : w.applyEg.closed = w.closed := by
  unfold closed applyEg gstNow; split <;> simp_all

@[simp] theorem Ctx.ended_wid (c : Ctx) : c.ended.wid = c.wid := rfl
@[simp] theorem Ctx.ended_fid (c : Ctx) : c.ended.fid = c.fid := rfl
@[simp] theorem Ctx.ended_ilen (c : Ctx) : c.ended.ilen = c.ilen := rfl
@[simp] theorem Ctx.ended_f (c : Ctx) : c.ended.f = c.f := rfl
@[simp] theorem Ctx.ended_t (c : Ctx) : c.ended.t = c.t := rfl
@[simp] theorem Ctx.ended_g (c : Ctx) : c.ended.g = c.g := rfl
@[simp] theorem Ctx.ended_w (c : Ctx) : c.ended.w = c.w.applyEg := rfl
@[simp] theorem Ctx.ended_after (c : Ctx) : c.ended.after = c.following := rfl

@[simp] theorem Wave.applyEg_doneRegs (w : Wave) : w.applyEg.doneRegs = w.doneRegs := by unfold applyEg; split <;> rfl
@[simp] theorem Wave.applyEg_faults (w : Wave) : w.applyEg.faults = w.faults := by unfold applyEg; split <;> rfl

theorem Wave.applyEg_budget (w : Wave) (ss vs : List Nat) : w.applyEg.budget ss vs = w.budget ss vs := by
  simp only [Wave.budget]
  congr 1 <;> (congr 1; funext r; simp [Wave.hasS, Wave.hasV])

/-- An instruction that names no register whose status word is unread observes nothing (R243). -/
theorem Ctx.observe_none {c : Ctx} {ws rs : List Nat} (h : ∀ r ∈ c.w.doneRegs, r ∉ ws ++ rs) (s : State) :
    c.observe s ws rs = (c, s) := by
  have hf : c.w.doneRegs.filter (fun r => !(ws ++ rs).contains r) = c.w.doneRegs :=
    List.filter_eq_self.mpr fun r hr => by
      have := h r hr
      simp only [List.mem_append, not_or] at this
      simp [this.1, this.2]
  have hr : rs.filter c.w.doneRegs.contains = [] := by
    rw [List.filter_eq_nil_iff]
    intro r hr
    simp only [List.contains_iff_mem]
    intro hm
    exact h r hm (List.mem_append_right _ hr)
  unfold Ctx.observe
  rw [hf, hr]
  split <;> rfl

/-- A scalar instruction whose registers are allocated, have arrived and hold no unread status word does its own work. -/
theorem scalarOp_ready {s : State} {c : Ctx} {ws rs vs : List Nat} (h : Ready s c (ws ++ rs) vs)
    (k : Ctx → State → State) : scalarOp s ws rs vs k = .next (k c.ended s) := by
  have hp : c.w.applyEg.pendingAny (ws ++ rs) = false := by simpa [Wave.pendingAny] using h.arrived
  have ho : c.ended.observe s ws rs = (c.ended, s) := Ctx.observe_none (by simpa using h.observed) s
  simp [scalarOp, withEnd_next h.runs, Ctx.scalar, Wave.applyEg_budget, h.allocated, hp, ho]

/-! ### The end of an instruction -/

theorem Ctx.jump_eq (c : Ctx) (s : State) (w : Wave) (pc : Word) :
    c.ended.jump s w pc = s.setWave c.wid (w.closed.moved c pc) := by
  simp only [Ctx.jump, Wave.endChain_eq_closed, Wave.setFrag, Wave.moved, setAt_eq_set]
  rfl

/-! ### Registers -/

theorem Wave.setS_sregs (w : Wave) (d : SReg) (v : Word) (g : Grade) : (w.setS d v g).sregs = sregsWith w d v g := by
  unfold setS sregsWith; split <;> simp [setAt_eq_set]

theorem Wave.setS_eq (w : Wave) (d : SReg) (v : Word) (g : Grade) :
    w.setS d v g = { w with sregs := sregsWith w d v g } := by
  unfold setS sregsWith; split <;> simp [setAt_eq_set]

/-! ### Repeated scalar instructions -/

theorem Repeated.refl (w : Wave) : Repeated w w := ⟨rfl, rfl, fun _ => rfl⟩

theorem setBits_toNat (w : Word) (hi lo v : Nat) : (setBits w hi lo v).toNat =
    (w.toNat - w.toNat / 2 ^ lo % 2 ^ (hi + 1 - lo) * 2 ^ lo + v % 2 ^ (hi + 1 - lo) * 2 ^ lo) % 2 ^ 64 := by
  rw [setBits, bits, BitVec.toNat_ofNat]

theorem low_of_sum (x v : Nat) (h : x < 18446744073709551616) :
    (x - x / 4294967296 % 65536 * 4294967296 + v % 65536 * 4294967296) % 18446744073709551616 % 4 = x % 4 := by omega

/-- A write of DISAGREE leaves EG (R46). -/
theorem setBits_high_low (w : Word) (v : Nat) : (setBits w 47 32 v).extractLsb' 0 2 = w.extractLsb' 0 2 := by
  apply BitVec.eq_of_toNat_eq
  rw [BitVec.extractLsb'_toNat, BitVec.extractLsb'_toNat, Nat.shiftRight_zero, Nat.shiftRight_zero, setBits_toNat]
  norm_num only
  exact low_of_sum w.toNat v w.isLt

theorem Wave.applyEg_eq (w : Wave) : w.applyEg = { w with egNext := none, gst := w.gstNow } := by
  unfold applyEg gstNow
  cases h : w.egNext <;> simp [← h]

/-- A counted disagreement writes GST alone and leaves EG (R271). -/
theorem Wave.disagree_spec (w : Wave) (n : Nat) :
    ∃ g : Word, w.disagree n = { w with gst := g } ∧ g.extractLsb' 0 2 = w.gst.extractLsb' 0 2 :=
  ⟨_, rfl, setBits_high_low _ _⟩

/-- A fired injection writes GINJ alone (R274). -/
theorem Wave.disarm_spec (w : Wave) : ∃ j : Word, w.disarm = { w with ginj := j } := ⟨_, rfl⟩

/-- The runs of a repeated scalar instruction write at most GST's count and GINJ, and nothing where no injection is
armed (R270, R271, R274). -/
theorem Wave.repeatScalar_spec (w : Wave) (n : Nat) :
    ∃ g j : Word, w.repeatScalar n = { w with gst := g, ginj := j } ∧ g.extractLsb' 0 2 = w.gst.extractLsb' 0 2
      ∧ (bit w.ginj 15 = false → g = w.gst ∧ j = w.ginj) := by
  unfold repeatScalar
  split
  · rename_i hs
    have armed : bit w.ginj 15 = true := by simp [struck] at hs; exact hs.1.1
    obtain ⟨j, hj⟩ := w.disarm_spec
    rw [hj]
    split
    · obtain ⟨g, hg, he⟩ := Wave.disagree_spec { w with ginj := j } 1
      exact ⟨g, j, hg, he, by simp [armed]⟩
    · exact ⟨w.gst, j, rfl, rfl, by simp [armed]⟩
  · exact ⟨w.gst, w.ginj, rfl, rfl, fun _ => ⟨rfl, rfl⟩⟩

theorem Wave.repeatScalar_repeated (w : Wave) (n : Nat) : Repeated w.closed (w.applyEg.repeatScalar n).closed := by
  obtain ⟨g, j, h, he, hq⟩ := w.applyEg.repeatScalar_spec n
  rw [Wave.applyEg_eq] at *
  simp only at he hq
  rw [h]
  exact ⟨rfl, he, fun q => by obtain ⟨rfl, rfl⟩ := hq q; rfl⟩

/-- A repeated scalar instruction that no fault of the hardware strikes commits its result (R270, R271). -/
theorem Ctx.repeated_unstruck {c : Ctx} (h : c.w.faults = []) (s : State) (n : Nat) (v : Word) (k : Wave → Word → Wave) :
    c.repeated s n v k = c.next s (k (c.w.repeatScalar n) v) := by
  simp [Ctx.repeated, Wave.voteScalar, h]

end Sys2Proof.Machine
end

