-- ==== Sys2Proof/Laws/PerInstr.lean ====
section
/-! SUPPORT. Which instructions have an encoding: one lemma per constructor. -/

namespace Sys2Proof.Laws.Encodes

/-- A step of another agent than a wave or a policy: it has no encoding. -/
def isEvent : Instr → Bool
  | .pageFaultResolution _ _ _ => true
  | .fragmentArrive _ _ => true
  | .joinBoundExpire _ _ => true
  | .carveComplete _ => true
  | .waitanyWake _ => true
  | .deadlineFire _ _ => true
  | .dispatchNeighbourhood _ => true
  | .teamRetire _ => true
  | .gridRetire _ => true
  | .engineContextStart _ => true
  | .copyOperationComplete _ => true
  | .engineFaultResolution _ _ => true
  | .matrixOpExecute _ => true
  | .matrixOpRetire _ _ => true
  | .mzeroExecute _ => true
  | .tileInterlockRelease _ _ => true
  | .bankCommandIntake _ => true
  | .bankPartExecute _ _ => true
  | .bankCommandComplete _ => true
  | .bfenceResume _ _ => true
  | .collectivePartComplete _ => true
  | .peerTimeout _ => true
  | .promotionRequest _ _ => true
  | .pageWalk _ _ _ _ => true
  | .memoryRequestService _ => true
  | .fadePass _ => true
  | .syscCompletion _ _ _ => true
  | .d2dMessageReceive _ _ => true
  | .d2dRetry _ => true
  | .cxlLinkDown _ => true
  | .cxlCompletionTimeout _ => true
  | .hostAccess _ _ _ => true
  | .roceRequest _ _ => true
  | .doorbellWrite _ _ => true
  | .policyPick _ _ _ _ => true
  | .timeSliceEnd _ _ _ => true
  | .drainWatchdogExpire _ => true
  | .urgentPreemption _ => true
  | .contextSave _ _ => true
  | .contextRestore _ => true
  | .queueLaunch _ => true
  | .copy _ => true
  | .coll _ => true
  | .depwait _ => true
  | .depwaitRecheck _ => true
  | .post _ => true
  | .vdset _ => true
  | .bind _ => true
  | .unbind _ => true
  | .shoot _ => true
  | .polload _ => true
  | .powerOn => true
  | .hbmTrainingComplete _ => true
  | .attestationRequest => true
  | .heartbeatMiss _ => true
  | .dieReset _ _ => true
  | .unitFence _ => true
  | .fullServiceSwitch _ => true
  | .retraceReplay _ => true
  | .housekeepingRegisterWrite _ _ => true
  | .dieReturnToService _ => true
  | .cxlPortEnumeration _ _ => true
  | .cxlWindowRemap _ _ => true
  | .debuggerResume _ _ _ _ => true
  | .heartbeat _ => true
  | _ => false

/-- An instruction has a code exactly if a wave or a policy executes it. -/
def Statement (i : Instr) : Prop := (encode i).isSome = !isEvent i

theorem sadd : ∀ x0 x1 x2, Statement (.sadd x0 x1 x2) := fun _ _ _ => rfl
theorem ssub : ∀ x0 x1 x2, Statement (.ssub x0 x1 x2) := fun _ _ _ => rfl
theorem smul : ∀ x0 x1 x2, Statement (.smul x0 x1 x2) := fun _ _ _ => rfl
theorem smulh : ∀ x0 x1 x2, Statement (.smulh x0 x1 x2) := fun _ _ _ => rfl
theorem smulhz : ∀ x0 x1 x2, Statement (.smulhz x0 x1 x2) := fun _ _ _ => rfl
theorem sdiv : ∀ x0 x1 x2, Statement (.sdiv x0 x1 x2) := fun _ _ _ => rfl
theorem sdivz : ∀ x0 x1 x2, Statement (.sdivz x0 x1 x2) := fun _ _ _ => rfl
theorem srem : ∀ x0 x1 x2, Statement (.srem x0 x1 x2) := fun _ _ _ => rfl
theorem sremz : ∀ x0 x1 x2, Statement (.sremz x0 x1 x2) := fun _ _ _ => rfl
theorem sand : ∀ x0 x1 x2, Statement (.sand x0 x1 x2) := fun _ _ _ => rfl
theorem sor : ∀ x0 x1 x2, Statement (.sor x0 x1 x2) := fun _ _ _ => rfl
theorem sxor : ∀ x0 x1 x2, Statement (.sxor x0 x1 x2) := fun _ _ _ => rfl
theorem sshl : ∀ x0 x1 x2, Statement (.sshl x0 x1 x2) := fun _ _ _ => rfl
theorem sshr : ∀ x0 x1 x2, Statement (.sshr x0 x1 x2) := fun _ _ _ => rfl
theorem ssra : ∀ x0 x1 x2, Statement (.ssra x0 x1 x2) := fun _ _ _ => rfl
theorem srol : ∀ x0 x1 x2, Statement (.srol x0 x1 x2) := fun _ _ _ => rfl
theorem smin : ∀ x0 x1 x2, Statement (.smin x0 x1 x2) := fun _ _ _ => rfl
theorem smax : ∀ x0 x1 x2, Statement (.smax x0 x1 x2) := fun _ _ _ => rfl
theorem sminz : ∀ x0 x1 x2, Statement (.sminz x0 x1 x2) := fun _ _ _ => rfl
theorem smaxz : ∀ x0 x1 x2, Statement (.smaxz x0 x1 x2) := fun _ _ _ => rfl
theorem sclz : ∀ x0 x1, Statement (.sclz x0 x1) := fun _ _ => rfl
theorem spopc : ∀ x0 x1, Statement (.spopc x0 x1) := fun _ _ => rfl
theorem sbfx : ∀ x0 x1 x2, Statement (.sbfx x0 x1 x2) := fun _ _ _ => rfl
theorem sbfi : ∀ x0 x1 x2, Statement (.sbfi x0 x1 x2) := fun _ _ _ => rfl
theorem ssel : ∀ x0 x1 x2, Statement (.ssel x0 x1 x2) := fun _ _ _ => rfl
theorem scmp : ∀ x0 x1, Statement (.scmp x0 x1) := fun _ _ => rfl
theorem jmpr : ∀ x0, Statement (.jmpr x0) := fun _ => rfl
theorem ret : ∀ x0, Statement (.ret x0) := fun _ => rfl
theorem maskget : ∀ x0, Statement (.maskget x0) := fun _ => rfl
theorem maskset : ∀ x0, Statement (.maskset x0) := fun _ => rfl
theorem mand : ∀ x0, Statement (.mand x0) := fun _ => rfl
theorem mandn : ∀ x0, Statement (.mandn x0) := fun _ => rfl
theorem mor : ∀ x0, Statement (.mor x0) := fun _ => rfl
theorem mpopc : ∀ x0, Statement (.mpopc x0) := fun _ => rfl
theorem saddi : ∀ x0 x1 x2, Statement (.saddi x0 x1 x2) := fun _ _ _ => rfl
theorem scmpi : ∀ x0 x1, Statement (.scmpi x0 x1) := fun _ _ => rfl
theorem sandi : ∀ x0 x1 x2, Statement (.sandi x0 x1 x2) := fun _ _ _ => rfl
theorem sori : ∀ x0 x1 x2, Statement (.sori x0 x1 x2) := fun _ _ _ => rfl
theorem sxori : ∀ x0 x1 x2, Statement (.sxori x0 x1 x2) := fun _ _ _ => rfl
theorem sshli : ∀ x0 x1 x2, Statement (.sshli x0 x1 x2) := fun _ _ _ => rfl
theorem sshri : ∀ x0 x1 x2, Statement (.sshri x0 x1 x2) := fun _ _ _ => rfl
theorem ssrai : ∀ x0 x1 x2, Statement (.ssrai x0 x1 x2) := fun _ _ _ => rfl
theorem slui : ∀ x0 x1, Statement (.slui x0 x1) := fun _ _ => rfl
theorem slea : ∀ x0 x1 x2 x3, Statement (.slea x0 x1 x2 x3) := fun _ _ _ _ => rfl
theorem br : ∀ x0, Statement (.br x0) := fun _ => rfl
theorem call : ∀ x0, Statement (.call x0) := fun _ => rfl
theorem bc : ∀ x0 x1, Statement (.bc x0 x1) := fun _ _ => rfl
theorem bmz : ∀ x0, Statement (.bmz x0) := fun _ => rfl
theorem bmnz : ∀ x0, Statement (.bmnz x0) := fun _ => rfl
theorem calli : ∀ x0 x1, Statement (.calli x0 x1) := fun _ _ => rfl
theorem srd : ∀ x0 x1, Statement (.srd x0 x1) := fun _ _ => rfl
theorem swr : ∀ x0 x1, Statement (.swr x0 x1) := fun _ _ => rfl
theorem sldB : ∀ x0 x1 x2, Statement (.sldB x0 x1 x2) := fun _ _ _ => rfl
theorem sldH : ∀ x0 x1 x2, Statement (.sldH x0 x1 x2) := fun _ _ _ => rfl
theorem sldW : ∀ x0 x1 x2, Statement (.sldW x0 x1 x2) := fun _ _ _ => rfl
theorem sldD : ∀ x0 x1 x2, Statement (.sldD x0 x1 x2) := fun _ _ _ => rfl
theorem sstB : ∀ x0 x1 x2, Statement (.sstB x0 x1 x2) := fun _ _ _ => rfl
theorem sstH : ∀ x0 x1 x2, Statement (.sstH x0 x1 x2) := fun _ _ _ => rfl
theorem sstW : ∀ x0 x1 x2, Statement (.sstW x0 x1 x2) := fun _ _ _ => rfl
theorem sstD : ∀ x0 x1 x2, Statement (.sstD x0 x1 x2) := fun _ _ _ => rfl
theorem split : ∀ x0 x1, Statement (.split x0 x1) := fun _ _ => rfl
theorem evbind : ∀ x0 x1 x2, Statement (.evbind x0 x1 x2) := fun _ _ _ => rfl
theorem waitany : ∀ x0 x1, Statement (.waitany x0 x1) := fun _ _ => rfl
theorem join : ∀ x0, Statement (.join x0) := fun _ => rfl
theorem yield : Statement (.yield) := rfl
theorem endw : Statement (.endw) := rfl
theorem launch : ∀ x0, Statement (.launch x0) := fun _ => rfl
theorem carve : ∀ x0 x1, Statement (.carve x0 x1) := fun _ _ => rfl
theorem bar : Statement (.bar) := rfl
theorem nbarArv : ∀ x0 x1, Statement (.nbarArv x0 x1) := fun _ _ => rfl
theorem nbarWt : ∀ x0, Statement (.nbarWt x0) := fun _ => rfl
theorem mbxSend : ∀ x0 x1, Statement (.mbxSend x0 x1) := fun _ _ => rfl
theorem mbxSendRel : ∀ x0 x1, Statement (.mbxSendRel x0 x1) := fun _ _ => rfl
theorem evmask : ∀ x0 x1, Statement (.evmask x0 x1) := fun _ _ => rfl
theorem evpoll : ∀ x0, Statement (.evpoll x0) := fun _ => rfl
theorem evclr : ∀ x0, Statement (.evclr x0) := fun _ => rfl
theorem fence : ∀ x0, Statement (.fence x0) := fun _ => rfl
theorem fenceAcq : ∀ x0, Statement (.fenceAcq x0) := fun _ => rfl
theorem fenceRel : ∀ x0, Statement (.fenceRel x0) := fun _ => rfl
theorem racq : ∀ x0 x1, Statement (.racq x0 x1) := fun _ _ => rfl
theorem rfence : Statement (.rfence) := rfl
theorem pref : ∀ x0, Statement (.pref x0) := fun _ => rfl
theorem cflush : ∀ x0 x1, Statement (.cflush x0 x1) := fun _ _ => rfl
theorem cinv : ∀ x0 x1, Statement (.cinv x0 x1) := fun _ _ => rfl
theorem mscpin : ∀ x0 x1 x2, Statement (.mscpin x0 x1 x2) := fun _ _ _ => rfl
theorem mscunpin : ∀ x0, Statement (.mscunpin x0) := fun _ => rfl
theorem satom : ∀ x0 x1 x2 x3 x4, Statement (.satom x0 x1 x2 x3 x4) := fun _ _ _ _ _ => rfl
theorem satomAcq : ∀ x0 x1 x2 x3 x4, Statement (.satomAcq x0 x1 x2 x3 x4) := fun _ _ _ _ _ => rfl
theorem satomRel : ∀ x0 x1 x2 x3 x4, Statement (.satomRel x0 x1 x2 x3 x4) := fun _ _ _ _ _ => rfl
theorem satomAcqrel : ∀ x0 x1 x2 x3 x4, Statement (.satomAcqrel x0 x1 x2 x3 x4) := fun _ _ _ _ _ => rfl
theorem xcopy : ∀ x0 x1 x2, Statement (.xcopy x0 x1 x2) := fun _ _ _ => rfl
theorem xgath : ∀ x0 x1 x2, Statement (.xgath x0 x1 x2) := fun _ _ _ => rfl
theorem xred : ∀ x0 x1 x2, Statement (.xred x0 x1 x2) := fun _ _ _ => rfl
theorem xfill : ∀ x0 x1 x2, Statement (.xfill x0 x1 x2) := fun _ _ _ => rfl
theorem bclose : ∀ x0 x1, Statement (.bclose x0 x1) := fun _ _ => rfl
theorem bwait : ∀ x0 x1, Statement (.bwait x0 x1) := fun _ _ => rfl
theorem cbinit : ∀ x0 x1, Statement (.cbinit x0 x1) := fun _ _ => rfl
theorem cbacq : ∀ x0 x1, Statement (.cbacq x0 x1) := fun _ _ => rfl
theorem cbcommit : ∀ x0 x1, Statement (.cbcommit x0 x1) := fun _ _ => rfl
theorem cbwait : ∀ x0 x1, Statement (.cbwait x0 x1) := fun _ _ => rfl
theorem cbrel : ∀ x0 x1, Statement (.cbrel x0 x1) := fun _ _ => rfl
theorem mma : ∀ x0 x1 x2, Statement (.mma x0 x1 x2) := fun _ _ _ => rfl
theorem mmaP : ∀ x0 x1 x2, Statement (.mmaP x0 x1 x2) := fun _ _ _ => rfl
theorem mzero : ∀ x0, Statement (.mzero x0) := fun _ => rfl
theorem nbzero : ∀ x0 x1 x2, Statement (.nbzero x0 x1 x2) := fun _ _ _ => rfl
theorem nbcopy : ∀ x0 x1 x2, Statement (.nbcopy x0 x1 x2) := fun _ _ _ => rfl
theorem nbaxpy : ∀ x0 x1 x2, Statement (.nbaxpy x0 x1 x2) := fun _ _ _ => rfl
theorem nbdot : ∀ x0 x1 x2, Statement (.nbdot x0 x1 x2) := fun _ _ _ => rfl
theorem nbscal : ∀ x0 x1 x2, Statement (.nbscal x0 x1 x2) := fun _ _ _ => rfl
theorem bfence : Statement (.bfence) := rfl
theorem xar : ∀ x0 x1 x2, Statement (.xar x0 x1 x2) := fun _ _ _ => rfl
theorem xag : ∀ x0 x1 x2, Statement (.xag x0 x1 x2) := fun _ _ _ => rfl
theorem xrs : ∀ x0 x1 x2, Statement (.xrs x0 x1 x2) := fun _ _ _ => rfl
theorem xbcst : ∀ x0 x1 x2, Statement (.xbcst x0 x1 x2) := fun _ _ _ => rfl
theorem trap : ∀ x0, Statement (.trap x0) := fun _ => rfl
theorem sysc : ∀ x0, Statement (.sysc x0) := fun _ => rfl
theorem brk : ∀ x0, Statement (.brk x0) := fun _ => rfl
theorem tfence : Statement (.tfence) := rfl
theorem tret : Statement (.tret) := rfl
theorem causeclr : ∀ x0, Statement (.causeclr x0) := fun _ => rfl
theorem dictionaryParcel : ∀ x0, Statement (.dictionaryParcel x0) := fun _ => rfl
theorem vadd : ∀ x0 x1 x2 x3 x4, Statement (.vadd x0 x1 x2 x3 x4) := fun _ _ _ _ _ => rfl
theorem vsub : ∀ x0 x1 x2 x3 x4, Statement (.vsub x0 x1 x2 x3 x4) := fun _ _ _ _ _ => rfl
theorem vmul : ∀ x0 x1 x2 x3 x4, Statement (.vmul x0 x1 x2 x3 x4) := fun _ _ _ _ _ => rfl
theorem vmulhI32 : ∀ x0 x1 x2 x3 x4, Statement (.vmulhI32 x0 x1 x2 x3 x4) := fun _ _ _ _ _ => rfl
theorem vmulhZ32 : ∀ x0 x1 x2 x3 x4, Statement (.vmulhZ32 x0 x1 x2 x3 x4) := fun _ _ _ _ _ => rfl
theorem vmad : ∀ x0 x1 x2 x3 x4, Statement (.vmad x0 x1 x2 x3 x4) := fun _ _ _ _ _ => rfl
theorem vminI32 : ∀ x0 x1 x2 x3 x4, Statement (.vminI32 x0 x1 x2 x3 x4) := fun _ _ _ _ _ => rfl
theorem vminZ32 : ∀ x0 x1 x2 x3 x4, Statement (.vminZ32 x0 x1 x2 x3 x4) := fun _ _ _ _ _ => rfl
theorem vmaxI32 : ∀ x0 x1 x2 x3 x4, Statement (.vmaxI32 x0 x1 x2 x3 x4) := fun _ _ _ _ _ => rfl
theorem vmaxZ32 : ∀ x0 x1 x2 x3 x4, Statement (.vmaxZ32 x0 x1 x2 x3 x4) := fun _ _ _ _ _ => rfl
theorem vand : ∀ x0 x1 x2 x3 x4, Statement (.vand x0 x1 x2 x3 x4) := fun _ _ _ _ _ => rfl
theorem vor : ∀ x0 x1 x2 x3 x4, Statement (.vor x0 x1 x2 x3 x4) := fun _ _ _ _ _ => rfl
theorem vxor : ∀ x0 x1 x2 x3 x4, Statement (.vxor x0 x1 x2 x3 x4) := fun _ _ _ _ _ => rfl
theorem vshl : ∀ x0 x1 x2 x3 x4, Statement (.vshl x0 x1 x2 x3 x4) := fun _ _ _ _ _ => rfl
theorem vshr : ∀ x0 x1 x2 x3 x4, Statement (.vshr x0 x1 x2 x3 x4) := fun _ _ _ _ _ => rfl
theorem vsra : ∀ x0 x1 x2 x3 x4, Statement (.vsra x0 x1 x2 x3 x4) := fun _ _ _ _ _ => rfl
theorem vshrr : ∀ x0 x1 x2 x3 x4, Statement (.vshrr x0 x1 x2 x3 x4) := fun _ _ _ _ _ => rfl
theorem vsel : ∀ x0 x1 x2 x3 x4, Statement (.vsel x0 x1 x2 x3 x4) := fun _ _ _ _ _ => rfl
theorem vcmpI32 : ∀ x0 x1 x2 x3 x4, Statement (.vcmpI32 x0 x1 x2 x3 x4) := fun _ _ _ _ _ => rfl
theorem vcmpZ32 : ∀ x0 x1 x2 x3 x4, Statement (.vcmpZ32 x0 x1 x2 x3 x4) := fun _ _ _ _ _ => rfl
theorem vadd2I16 : ∀ x0 x1 x2 x3 x4, Statement (.vadd2I16 x0 x1 x2 x3 x4) := fun _ _ _ _ _ => rfl
theorem vsub2I16 : ∀ x0 x1 x2 x3 x4, Statement (.vsub2I16 x0 x1 x2 x3 x4) := fun _ _ _ _ _ => rfl
theorem vmac2I16 : ∀ x0 x1 x2 x3 x4, Statement (.vmac2I16 x0 x1 x2 x3 x4) := fun _ _ _ _ _ => rfl
theorem vaddVi : ∀ x0 x1 x2 x3 x4, Statement (.vaddVi x0 x1 x2 x3 x4) := fun _ _ _ _ _ => rfl
theorem vandVi : ∀ x0 x1 x2 x3 x4, Statement (.vandVi x0 x1 x2 x3 x4) := fun _ _ _ _ _ => rfl
theorem vorVi : ∀ x0 x1 x2 x3 x4, Statement (.vorVi x0 x1 x2 x3 x4) := fun _ _ _ _ _ => rfl
theorem vxorVi : ∀ x0 x1 x2 x3 x4, Statement (.vxorVi x0 x1 x2 x3 x4) := fun _ _ _ _ _ => rfl
theorem vshlVi : ∀ x0 x1 x2 x3 x4, Statement (.vshlVi x0 x1 x2 x3 x4) := fun _ _ _ _ _ => rfl
theorem vshrVi : ∀ x0 x1 x2 x3 x4, Statement (.vshrVi x0 x1 x2 x3 x4) := fun _ _ _ _ _ => rfl
theorem vsraVi : ∀ x0 x1 x2 x3 x4, Statement (.vsraVi x0 x1 x2 x3 x4) := fun _ _ _ _ _ => rfl
theorem vshrrVi : ∀ x0 x1 x2 x3 x4, Statement (.vshrrVi x0 x1 x2 x3 x4) := fun _ _ _ _ _ => rfl
theorem vfadd : ∀ x0 x1 x2 x3 x4, Statement (.vfadd x0 x1 x2 x3 x4) := fun _ _ _ _ _ => rfl
theorem vfsub : ∀ x0 x1 x2 x3 x4, Statement (.vfsub x0 x1 x2 x3 x4) := fun _ _ _ _ _ => rfl
theorem vfmul : ∀ x0 x1 x2 x3 x4, Statement (.vfmul x0 x1 x2 x3 x4) := fun _ _ _ _ _ => rfl
theorem vfma : ∀ x0 x1 x2 x3 x4, Statement (.vfma x0 x1 x2 x3 x4) := fun _ _ _ _ _ => rfl
theorem vfmin : ∀ x0 x1 x2 x3 x4, Statement (.vfmin x0 x1 x2 x3 x4) := fun _ _ _ _ _ => rfl
theorem vfmax : ∀ x0 x1 x2 x3 x4, Statement (.vfmax x0 x1 x2 x3 x4) := fun _ _ _ _ _ => rfl
theorem vfcmp : ∀ x0 x1 x2 x3 x4, Statement (.vfcmp x0 x1 x2 x3 x4) := fun _ _ _ _ _ => rfl
theorem vrcp : ∀ x0 x1 x2 x3, Statement (.vrcp x0 x1 x2 x3) := fun _ _ _ _ => rfl
theorem vrsq : ∀ x0 x1 x2 x3, Statement (.vrsq x0 x1 x2 x3) := fun _ _ _ _ => rfl
theorem vsqrt : ∀ x0 x1 x2 x3, Statement (.vsqrt x0 x1 x2 x3) := fun _ _ _ _ => rfl
theorem vfract : ∀ x0 x1 x2 x3, Statement (.vfract x0 x1 x2 x3) := fun _ _ _ _ => rfl
theorem vfloor : ∀ x0 x1 x2 x3, Statement (.vfloor x0 x1 x2 x3) := fun _ _ _ _ => rfl
theorem vrrt : ∀ x0 x1 x2 x3, Statement (.vrrt x0 x1 x2 x3) := fun _ _ _ _ => rfl
theorem vsint : ∀ x0 x1 x2 x3, Statement (.vsint x0 x1 x2 x3) := fun _ _ _ _ => rfl
theorem vcost : ∀ x0 x1 x2 x3, Statement (.vcost x0 x1 x2 x3) := fun _ _ _ _ => rfl
theorem vexp2 : ∀ x0 x1 x2 x3, Statement (.vexp2 x0 x1 x2 x3) := fun _ _ _ _ => rfl
theorem vlog2 : ∀ x0 x1 x2 x3, Statement (.vlog2 x0 x1 x2 x3) := fun _ _ _ _ => rfl
theorem vhadd2Bf16 : ∀ x0 x1 x2 x3 x4, Statement (.vhadd2Bf16 x0 x1 x2 x3 x4) := fun _ _ _ _ _ => rfl
theorem vhadd2F16 : ∀ x0 x1 x2 x3 x4, Statement (.vhadd2F16 x0 x1 x2 x3 x4) := fun _ _ _ _ _ => rfl
theorem vhmul2Bf16 : ∀ x0 x1 x2 x3 x4, Statement (.vhmul2Bf16 x0 x1 x2 x3 x4) := fun _ _ _ _ _ => rfl
theorem vhmul2F16 : ∀ x0 x1 x2 x3 x4, Statement (.vhmul2F16 x0 x1 x2 x3 x4) := fun _ _ _ _ _ => rfl
theorem vhfma2Bf16 : ∀ x0 x1 x2 x3 x4, Statement (.vhfma2Bf16 x0 x1 x2 x3 x4) := fun _ _ _ _ _ => rfl
theorem vhfma2F16 : ∀ x0 x1 x2 x3 x4, Statement (.vhfma2F16 x0 x1 x2 x3 x4) := fun _ _ _ _ _ => rfl
theorem vdot2Bf16 : ∀ x0 x1 x2 x3 x4, Statement (.vdot2Bf16 x0 x1 x2 x3 x4) := fun _ _ _ _ _ => rfl
theorem vdot2F16 : ∀ x0 x1 x2 x3 x4, Statement (.vdot2F16 x0 x1 x2 x3 x4) := fun _ _ _ _ _ => rfl
theorem vcvt : ∀ x0 x1 x2 x3 x4 x5, Statement (.vcvt x0 x1 x2 x3 x4 x5) := fun _ _ _ _ _ _ => rfl
theorem vslideUp : ∀ x0 x1 x2 x3 x4 x5, Statement (.vslideUp x0 x1 x2 x3 x4 x5) := fun _ _ _ _ _ _ => rfl
theorem vslideDn : ∀ x0 x1 x2 x3 x4 x5, Statement (.vslideDn x0 x1 x2 x3 x4 x5) := fun _ _ _ _ _ _ => rfl
theorem vswapp : ∀ x0 x1 x2, Statement (.vswapp x0 x1 x2) := fun _ _ _ => rfl
theorem vperm : ∀ x0 x1 x2 x3, Statement (.vperm x0 x1 x2 x3) := fun _ _ _ _ => rfl
theorem vbcast : ∀ x0 x1 x2 x3, Statement (.vbcast x0 x1 x2 x3) := fun _ _ _ _ => rfl
theorem vred : ∀ x0 x1 x2 x3 x4 x5, Statement (.vred x0 x1 x2 x3 x4 x5) := fun _ _ _ _ _ _ => rfl
theorem vldf : ∀ x0 x1 x2, Statement (.vldf x0 x1 x2) := fun _ _ _ => rfl
theorem vstf : ∀ x0 x1 x2, Statement (.vstf x0 x1 x2) := fun _ _ _ => rfl
theorem vld : ∀ x0 x1 x2 x3, Statement (.vld x0 x1 x2 x3) := fun _ _ _ _ => rfl
theorem vst : ∀ x0 x1 x2 x3, Statement (.vst x0 x1 x2 x3) := fun _ _ _ _ => rfl
theorem vlds : ∀ x0 x1 x2 x3, Statement (.vlds x0 x1 x2 x3) := fun _ _ _ _ => rfl
theorem vsts : ∀ x0 x1 x2 x3, Statement (.vsts x0 x1 x2 x3) := fun _ _ _ _ => rfl
theorem vatom : ∀ x0 x1 x2 x3, Statement (.vatom x0 x1 x2 x3) := fun _ _ _ _ => rfl
theorem mrd : ∀ x0 x1 x2 x3, Statement (.mrd x0 x1 x2 x3) := fun _ _ _ _ => rfl
theorem mwr : ∀ x0 x1 x2, Statement (.mwr x0 x1 x2) := fun _ _ _ => rfl
theorem grtag : ∀ x0 x1 x2 x3, Statement (.grtag x0 x1 x2 x3) := fun _ _ _ _ => rfl
theorem grchk : ∀ x0, Statement (.grchk x0) := fun _ => rfl
theorem grdil : ∀ x0 x1 x2 x3, Statement (.grdil x0 x1 x2 x3) := fun _ _ _ _ => rfl
theorem grlim : ∀ x0, Statement (.grlim x0) := fun _ => rfl
theorem cNop : Statement (.cNop) := rfl
theorem cLdi : ∀ x0 x1, Statement (.cLdi x0 x1) := fun _ _ => rfl
theorem cLui : ∀ x0 x1, Statement (.cLui x0 x1) := fun _ _ => rfl
theorem cAdd : ∀ x0 x1 x2, Statement (.cAdd x0 x1 x2) := fun _ _ _ => rfl
theorem cSub : ∀ x0 x1 x2, Statement (.cSub x0 x1 x2) := fun _ _ _ => rfl
theorem cMul : ∀ x0 x1 x2, Statement (.cMul x0 x1 x2) := fun _ _ _ => rfl
theorem cAnd : ∀ x0 x1 x2, Statement (.cAnd x0 x1 x2) := fun _ _ _ => rfl
theorem cOr : ∀ x0 x1 x2, Statement (.cOr x0 x1 x2) := fun _ _ _ => rfl
theorem cXor : ∀ x0 x1 x2, Statement (.cXor x0 x1 x2) := fun _ _ _ => rfl
theorem cShl : ∀ x0 x1 x2, Statement (.cShl x0 x1 x2) := fun _ _ _ => rfl
theorem cShr : ∀ x0 x1 x2, Statement (.cShr x0 x1 x2) := fun _ _ _ => rfl
theorem cMin : ∀ x0 x1 x2, Statement (.cMin x0 x1 x2) := fun _ _ _ => rfl
theorem cMax : ∀ x0 x1 x2, Statement (.cMax x0 x1 x2) := fun _ _ _ => rfl
theorem cSlt : ∀ x0 x1 x2, Statement (.cSlt x0 x1 x2) := fun _ _ _ => rfl
theorem cAddi : ∀ x0 x1 x2, Statement (.cAddi x0 x1 x2) := fun _ _ _ => rfl
theorem cSel : ∀ x0 x1 x2, Statement (.cSel x0 x1 x2) := fun _ _ _ => rfl
theorem cBeq : ∀ x0 x1 x2, Statement (.cBeq x0 x1 x2) := fun _ _ _ => rfl
theorem cBne : ∀ x0 x1 x2, Statement (.cBne x0 x1 x2) := fun _ _ _ => rfl
theorem cBlt : ∀ x0 x1 x2, Statement (.cBlt x0 x1 x2) := fun _ _ _ => rfl
theorem cBge : ∀ x0 x1 x2, Statement (.cBge x0 x1 x2) := fun _ _ _ => rfl
theorem cJmp : ∀ x0, Statement (.cJmp x0) := fun _ => rfl
theorem cLoopn : ∀ x0 x1, Statement (.cLoopn x0 x1) := fun _ _ => rfl
theorem cLdq : ∀ x0 x1 x2, Statement (.cLdq x0 x1 x2) := fun _ _ _ => rfl
theorem cLde : ∀ x0 x1, Statement (.cLde x0 x1) := fun _ _ => rfl
theorem cLds : ∀ x0 x1, Statement (.cLds x0 x1) := fun _ _ => rfl
theorem cSts : ∀ x0 x1, Statement (.cSts x0 x1) := fun _ _ => rfl
theorem cRetq : ∀ x0, Statement (.cRetq x0) := fun _ => rfl
theorem cRetn : Statement (.cRetn) := rfl
theorem pageFaultResolution : ∀ x0 x1 x2, Statement (.pageFaultResolution x0 x1 x2) := fun _ _ _ => rfl
theorem fragmentArrive : ∀ x0 x1, Statement (.fragmentArrive x0 x1) := fun _ _ => rfl
theorem joinBoundExpire : ∀ x0 x1, Statement (.joinBoundExpire x0 x1) := fun _ _ => rfl
theorem carveComplete : ∀ x0, Statement (.carveComplete x0) := fun _ => rfl
theorem waitanyWake : ∀ x0, Statement (.waitanyWake x0) := fun _ => rfl
theorem deadlineFire : ∀ x0 x1, Statement (.deadlineFire x0 x1) := fun _ _ => rfl
theorem dispatchNeighbourhood : ∀ x0, Statement (.dispatchNeighbourhood x0) := fun _ => rfl
theorem teamRetire : ∀ x0, Statement (.teamRetire x0) := fun _ => rfl
theorem gridRetire : ∀ x0, Statement (.gridRetire x0) := fun _ => rfl
theorem engineContextStart : ∀ x0, Statement (.engineContextStart x0) := fun _ => rfl
theorem copyOperationComplete : ∀ x0, Statement (.copyOperationComplete x0) := fun _ => rfl
theorem engineFaultResolution : ∀ x0 x1, Statement (.engineFaultResolution x0 x1) := fun _ _ => rfl
theorem matrixOpExecute : ∀ x0, Statement (.matrixOpExecute x0) := fun _ => rfl
theorem matrixOpRetire : ∀ x0 x1, Statement (.matrixOpRetire x0 x1) := fun _ _ => rfl
theorem mzeroExecute : ∀ x0, Statement (.mzeroExecute x0) := fun _ => rfl
theorem tileInterlockRelease : ∀ x0 x1, Statement (.tileInterlockRelease x0 x1) := fun _ _ => rfl
theorem bankCommandIntake : ∀ x0, Statement (.bankCommandIntake x0) := fun _ => rfl
theorem bankPartExecute : ∀ x0 x1, Statement (.bankPartExecute x0 x1) := fun _ _ => rfl
theorem bankCommandComplete : ∀ x0, Statement (.bankCommandComplete x0) := fun _ => rfl
theorem bfenceResume : ∀ x0 x1, Statement (.bfenceResume x0 x1) := fun _ _ => rfl
theorem collectivePartComplete : ∀ x0, Statement (.collectivePartComplete x0) := fun _ => rfl
theorem peerTimeout : ∀ x0, Statement (.peerTimeout x0) := fun _ => rfl
theorem promotionRequest : ∀ x0 x1, Statement (.promotionRequest x0 x1) := fun _ _ => rfl
theorem pageWalk : ∀ x0 x1 x2 x3, Statement (.pageWalk x0 x1 x2 x3) := fun _ _ _ _ => rfl
theorem memoryRequestService : ∀ x0, Statement (.memoryRequestService x0) := fun _ => rfl
theorem fadePass : ∀ x0, Statement (.fadePass x0) := fun _ => rfl
theorem syscCompletion : ∀ x0 x1 x2, Statement (.syscCompletion x0 x1 x2) := fun _ _ _ => rfl
theorem d2dMessageReceive : ∀ x0 x1, Statement (.d2dMessageReceive x0 x1) := fun _ _ => rfl
theorem d2dRetry : ∀ x0, Statement (.d2dRetry x0) := fun _ => rfl
theorem cxlLinkDown : ∀ x0, Statement (.cxlLinkDown x0) := fun _ => rfl
theorem cxlCompletionTimeout : ∀ x0, Statement (.cxlCompletionTimeout x0) := fun _ => rfl
theorem hostAccess : ∀ x0 x1 x2, Statement (.hostAccess x0 x1 x2) := fun _ _ _ => rfl
theorem roceRequest : ∀ x0 x1, Statement (.roceRequest x0 x1) := fun _ _ => rfl
theorem doorbellWrite : ∀ x0 x1, Statement (.doorbellWrite x0 x1) := fun _ _ => rfl
theorem policyPick : ∀ x0 x1 x2 x3, Statement (.policyPick x0 x1 x2 x3) := fun _ _ _ _ => rfl
theorem timeSliceEnd : ∀ x0 x1 x2, Statement (.timeSliceEnd x0 x1 x2) := fun _ _ _ => rfl
theorem drainWatchdogExpire : ∀ x0, Statement (.drainWatchdogExpire x0) := fun _ => rfl
theorem urgentPreemption : ∀ x0, Statement (.urgentPreemption x0) := fun _ => rfl
theorem contextSave : ∀ x0 x1, Statement (.contextSave x0 x1) := fun _ _ => rfl
theorem contextRestore : ∀ x0, Statement (.contextRestore x0) := fun _ => rfl
theorem queueLaunch : ∀ x0, Statement (.queueLaunch x0) := fun _ => rfl
theorem copy : ∀ x0, Statement (.copy x0) := fun _ => rfl
theorem coll : ∀ x0, Statement (.coll x0) := fun _ => rfl
theorem depwait : ∀ x0, Statement (.depwait x0) := fun _ => rfl
theorem depwaitRecheck : ∀ x0, Statement (.depwaitRecheck x0) := fun _ => rfl
theorem post : ∀ x0, Statement (.post x0) := fun _ => rfl
theorem vdset : ∀ x0, Statement (.vdset x0) := fun _ => rfl
theorem bind : ∀ x0, Statement (.bind x0) := fun _ => rfl
theorem unbind : ∀ x0, Statement (.unbind x0) := fun _ => rfl
theorem shoot : ∀ x0, Statement (.shoot x0) := fun _ => rfl
theorem polload : ∀ x0, Statement (.polload x0) := fun _ => rfl
theorem powerOn : Statement (.powerOn) := rfl
theorem hbmTrainingComplete : ∀ x0, Statement (.hbmTrainingComplete x0) := fun _ => rfl
theorem attestationRequest : Statement (.attestationRequest) := rfl
theorem heartbeatMiss : ∀ x0, Statement (.heartbeatMiss x0) := fun _ => rfl
theorem dieReset : ∀ x0 x1, Statement (.dieReset x0 x1) := fun _ _ => rfl
theorem unitFence : ∀ x0, Statement (.unitFence x0) := fun _ => rfl
theorem fullServiceSwitch : ∀ x0, Statement (.fullServiceSwitch x0) := fun _ => rfl
theorem retraceReplay : ∀ x0, Statement (.retraceReplay x0) := fun _ => rfl
theorem housekeepingRegisterWrite : ∀ x0 x1, Statement (.housekeepingRegisterWrite x0 x1) := fun _ _ => rfl
theorem dieReturnToService : ∀ x0, Statement (.dieReturnToService x0) := fun _ => rfl
theorem cxlPortEnumeration : ∀ x0 x1, Statement (.cxlPortEnumeration x0 x1) := fun _ _ => rfl
theorem cxlWindowRemap : ∀ x0 x1, Statement (.cxlWindowRemap x0 x1) := fun _ _ => rfl
theorem debuggerResume : ∀ x0 x1 x2 x3, Statement (.debuggerResume x0 x1 x2 x3) := fun _ _ _ _ => rfl
theorem heartbeat : ∀ x0, Statement (.heartbeat x0) := fun _ => rfl

end Sys2Proof.Laws.Encodes
end

