-- ==== Sys2Proof/Laws/Scalar.lean ====
section
/-! SUPPORT. One lemma per shared scalar operation: the outcome where its registers are allocated and have arrived. -/

namespace Sys2Proof.Machine

/-- The end of a repeated instruction that changes the wave by h after its runs. -/
theorem Ctx.next_repeated (c : Ctx) (s : State) (n : Nat) (d : SReg) (v : Word) (g : Grade) :
    WritesScalar s c (.next (c.ended.next s ((c.ended.w.repeatScalar n).setS d v g))) d v g := by
  obtain ⟨x, j, h, he, hq⟩ := c.w.applyEg.repeatScalar_spec n
  refine ⟨(c.w.applyEg.repeatScalar n).closed, Wave.repeatScalar_repeated c.w n, ?_⟩
  rw [Ctx.next, Ctx.ended_after, Ctx.jump_eq, Wave.setS_eq, Ctx.ended_w, h, Wave.applyEg_eq]
  rfl

theorem resultTag_two (w : Wave) (a b : SReg) :
    w.resultTag [a, b] = Grade.min (Grade.min w.eg (w.stag a)) (w.stag b) := rfl

theorem aluOp_writes {s : State} {c : Ctx} {d a b : SReg} (h : Ready s c [d.toNat, a.toNat, b.toNat] [])
    (g : Word → Word → Word) :
    WritesScalar s c (aluOp s d a b g) d (g (c.w.s a) (c.w.s b))
      (Grade.min (Grade.min c.w.egNow (c.w.stag a)) (c.w.stag b)) := by
  rw [aluOp, scalarOp_ready h, Ctx.repeated_unstruck (by simpa using h.unstruck)]
  simpa [Wave.resultTag] using c.next_repeated s 64 d (g (c.w.s a) (c.w.s b)) _

theorem alu3Op_writes {s : State} {c : Ctx} {d a b : SReg} (h : Ready s c [d.toNat, a.toNat, b.toNat] [])
    (g : Word → Word → Word → Word) :
    WritesScalar s c (alu3Op s d a b g) d (g (c.w.s d) (c.w.s a) (c.w.s b))
      (Grade.min (Grade.min (Grade.min c.w.egNow (c.w.stag d)) (c.w.stag a)) (c.w.stag b)) := by
  rw [alu3Op, scalarOp_ready h, Ctx.repeated_unstruck (by simpa using h.unstruck)]
  simpa [Wave.resultTag] using c.next_repeated s 64 d (g (c.w.s d) (c.w.s a) (c.w.s b)) _

theorem unaryOp_writes {s : State} {c : Ctx} {d a : SReg} (h : Ready s c [d.toNat, a.toNat] []) (g : Word → Word) :
    WritesScalar s c (unaryOp s d a g) d (g (c.w.s a)) (Grade.min c.w.egNow (c.w.stag a)) := by
  rw [unaryOp, scalarOp_ready h, Ctx.repeated_unstruck (by simpa using h.unstruck)]
  simpa [Wave.resultTag] using c.next_repeated s 64 d (g (c.w.s a)) _

/-- A branch goes to its target or to the next instruction and changes nothing else. -/
theorem branchIf_leaves {s : State} {c : Ctx} (h : s.ctx? = some c) (o : Word) (p : Ctx → Bool) :
    LeavesWave s c (branchIf s o p) c.w.closed (if p c.ended then c.f.pc + (o <<< 1) else c.following) := by
  rw [LeavesWave, branchIf, withEnd_next h, Ctx.jump_eq, Ctx.ended_w, Wave.applyEg_closed]
  rfl

theorem jumpReg_leaves {s : State} {c : Ctx} {a : SReg} (h : Ready s c [a.toNat] []) :
    LeavesWave s c (jumpReg s a) c.w.closed (c.w.s a &&& ~~~1) := by
  rw [LeavesWave, jumpReg, scalarOp_ready h, Ctx.jump_eq, Ctx.ended_w, Wave.applyEg_closed, Wave.applyEg_s]

end Sys2Proof.Machine
end

