-- ==== Sys2Proof/Laws/Vector.lean ====
section
/-! SUPPORT. The shared form of a vector instruction: its start, its runs without an injected fault, its end. -/

namespace Sys2Proof.Machine

/-! ### The start -/

theorem Ctx.enter_w (c : Ctx) (f : VecForm) : (c.enter f).w = if f.latches = [] then c.w.applyEg else c.w := by
  unfold enter; cases h : f.latches <;> simp

@[simp] theorem Ctx.enter_f (c : Ctx) (f : VecForm) : (c.enter f).f = c.f := by unfold enter; split <;> rfl
@[simp] theorem Ctx.enter_wid (c : Ctx) (f : VecForm) : (c.enter f).wid = c.wid := by unfold enter; split <;> rfl
@[simp] theorem Ctx.enter_fid (c : Ctx) (f : VecForm) : (c.enter f).fid = c.fid := by unfold enter; split <;> rfl
@[simp] theorem Ctx.enter_after (c : Ctx) (f : VecForm) : (c.enter f).after = c.following := by
  unfold enter; split <;> rfl

theorem Ctx.enter_before (c : Ctx) (f : VecForm) : (c.enter f).before f = c.chain f := by
  unfold Ctx.before Ctx.chain Ctx.enter
  cases h : f.latches <;> simp

theorem Ctx.vector_ready {s : State} {c : Ctx} {f : VecForm} (h : VecReady s c f) (p : LaneMask)
    (k : Ctx → State → State) : (c.enter f).vector s f p k = k (c.enter f) s := by
  have hb := h.ready.allocated
  have hp := h.ready.arrived
  have hl := h.latch
  have ew := c.enter_w f
  have b : (c.enter f).w.budget f.sregs f.vregs = true := by
    rw [ew]; split
    · rw [← hb]; simp only [Wave.budget]; congr 1 <;> (congr 1; funext r; simp [Wave.hasS, Wave.hasV])
    · exact hb
  have p : (c.enter f).w.pendingAny f.sregs = false := by
    rw [ew]; split
    · rw [← hp]; simp [Wave.pendingAny]
    · exact hp
  have l : (f.latches.any fun i => decide ((c.enter f).open'.length ≤ i)) = false := by
    unfold Ctx.enter
    cases e : f.latches with
    | nil => rfl
    | cons a t =>
      simp only [List.isEmpty_cons, Bool.false_eq_true, if_false, List.any_eq_false, decide_eq_true_eq, not_le]
      rw [← e]; exact hl
  have o : (c.enter f).observe s f.writesS f.readsS = (c.enter f, s) := Ctx.observe_none (by
    rw [ew]
    intro r hr hm
    refine h.ready.observed r ?_ ?_
    · revert hr; split <;> simp
    · simp only [VecForm.sregs, List.mem_append] at hm ⊢; exact hm.symm) s
  simp [Ctx.vector, Ctx.vectorCauses, b, p, l, o]

/-- The wave in which a vector instruction runs. -/
theorem Ctx.entered_eq (c : Ctx) (f : VecForm) :
    (if f.latches.isEmpty then (c.enter f).w.endChain else (c.enter f).w) = c.entered f := by
  rw [Ctx.enter_w]
  unfold Ctx.entered
  cases h : f.latches <;> simp [Wave.endChain_eq_closed, Wave.applyEg_closed]

/-! ### The runs and the end -/

theorem vote_quiet {w : Wave} (h : bit w.ginj 15 = false) (hf : w.faults = []) (mask : LaneMask) (dst : VDst)
    (r : VRes) : vote w mask dst r [] = { w := w.raiseFlags r.flags, out := r, base := r, runs := [], bad := 0 } := by
  simp [vote, hf, Wave.laneArmed, h]

theorem Ctx.entered_ginj (c : Ctx) (f : VecForm) : (c.entered f).ginj = c.w.ginj := by
  unfold Ctx.entered; split <;> rfl
theorem Ctx.entered_faults (c : Ctx) (f : VecForm) : (c.entered f).faults = c.w.faults := by
  unfold Ctx.entered; split <;> rfl
theorem Ctx.entered_alts {c : Ctx} (q : Quiet c.w) (f : VecForm) : (c.entered f).alts = [] := by
  unfold Ctx.entered; split
  · rfl
  · exact q.2
theorem Ctx.entered_width (c : Ctx) (f : VecForm) : (c.entered f).width = c.w.width := by
  unfold Ctx.entered; split <;> rfl
theorem Ctx.entered_frags (c : Ctx) (f : VecForm) : (c.entered f).frags = c.w.frags := by
  unfold Ctx.entered; split <;> rfl

/-- A vector instruction with a 32-bit destination, no injected fault armed. -/
theorem vectorOp_leaves {s : State} {c : Ctx} {f : VecForm} {d : VReg} (h : VecReady s c f) (q : Quiet c.w)
    (hd : f.dst = .v32 d) (g : Ctx → Wave → VIn → VRes) :
    let w := c.entered f
    let x := f.inputs w (c.chain f)
    let r := g (c.enter f) w x
    LeavesWave s c (vectorOp s f g)
      (c.vectorAfter f (vregsWith w c.f.mask f.k d (fun l => r.lanes.getD l 0) (f.tag w x) r.poison)
        (latchWith c.w c.f.mask (fun l => r.lanes.getD l 0) (f.tag w x) r.poison) r.flags) c.following := by
  intro w x r
  have alt : ((c.enter f).altsBefore f) = [] := by
    unfold Ctx.altsBefore
    rw [Ctx.enter_w]
    cases e : f.latches <;> simp [q.2]
  have hg : bit (c.entered f).ginj 15 = false := by rw [Ctx.entered_ginj]; exact q.1
  have hf : (c.entered f).faults = [] := by rw [Ctx.entered_faults]; exact h.ready.unstruck
  rw [LeavesWave, vectorOp, withCtx_next h.ready.runs]
  simp only [Ctx.vector_ready h, Ctx.runVector, Ctx.entered_eq, Ctx.enter_before, alt, List.map_nil, Ctx.enter_f,
    vote_quiet hg hf, Ctx.noteVote, if_true, Ctx.finishV, hd, Ctx.enter_wid, Ctx.enter_fid, Ctx.enter_after]
  congr 2
  have el : pushLatch (c.chain f) (.v32 d) (latchOf ((c.entered f).raiseFlags r.flags) c.f.mask r (f.tag w x))
      = if decide ((c.chain f).length = 3) = true then [] else
        latchWith c.w c.f.mask (fun l => r.lanes.getD l 0) (f.tag w x) r.poison :: c.chain f := by
    simp only [pushLatch, latchOf, latchWith, mergeLanes, Wave.raiseFlags_width, Ctx.entered_width, decide_eq_true_eq]
    simp
  have ev : (writeDst ((c.entered f).raiseFlags r.flags) c.f.mask f.k (.v32 d) r (f.tag w x)) =
      { (c.entered f).raiseFlags r.flags with
        vregs := vregsWith w c.f.mask f.k d (fun l => r.lanes.getD l 0) (f.tag w x) r.poison } := by
    simp only [writeDst, Wave.setV, vregsWith]
    cases f.k <;> by_cases hm : c.f.mask = 0 <;> simp only [hm, if_true, if_false, or_true, or_false,
      Bool.false_eq_true, setAt_eq_set] <;> rfl
  rw [el, ev]
  have ea := Ctx.entered_alts q f
  unfold Ctx.vectorAfter
  by_cases hl : (c.chain f).length = 3
  · simp only [hl, decide_true, if_true, List.isEmpty_nil, Bool.not_true, Bool.and_false]
    rw [Wave.applyEg_eq]
    simp only [Wave.setFrag, Wave.moved, Wave.closed, Wave.raiseFlags, setAt_eq_set, Ctx.entered_frags]
    rfl
  · simp only [hl, decide_false, Bool.false_eq_true, if_false, List.isEmpty_cons, Bool.not_false, Bool.and_true]
    simp only [Wave.setFrag, Wave.moved, Wave.raiseFlags, setAt_eq_set, Ctx.entered_frags, ea]
    rw [← ea]
    rfl

/-- The sources that count for tag and poison are those of R79 where the form has no fill and no 64-bit source. -/
theorem Ctx.sources_eq (c : Ctx) {f : VecForm} {d : VReg} (hd : f.dst = .v32 d) (hc : f.cls ≠ .slide)
    (h64 : f.src64 = none) : f.counted (f.inputs (c.entered f) (c.chain f)) = c.sources f := by
  unfold Ctx.sources VecForm.counted VecForm.inputs VecForm.thirdOf
  cases ht : f.third <;> cases hm : f.m <;> simp_all

theorem vregsWith_congr {w : Wave} {mask : LaneMask} {k : Bool} {d : VReg} {x y : Nat → Lane} {g : Grade} {p : LaneMask}
    (h : ∀ l < w.width, mask.getLsbD l = true → x l = y l) :
    vregsWith w mask k d x g p = vregsWith w mask k d y g p := by
  unfold vregsWith vregWith
  split
  · rfl
  · congr 2
    apply List.map_congr_left
    intro l hl
    split
    · exact h l (List.mem_range.mp hl) ‹_›
    · rfl

theorem latchWith_congr {w : Wave} {mask : LaneMask} {x y : Nat → Lane} {g : Grade} {p : LaneMask}
    (h : ∀ l < w.width, mask.getLsbD l = true → x l = y l) : latchWith w mask x g p = latchWith w mask y g p := by
  unfold latchWith
  congr 1
  apply List.map_congr_left
  intro l hl
  split
  · exact h l (List.mem_range.mp hl) ‹_›
  · rfl

theorem foldl_lanewise (g : Nat → Nat × BitVec 6) (mask : LaneMask) (n : Nat) :
    ((List.range n).map (fun l => if mask.getLsbD l then g l else (0, 0))).foldl (fun fl r => fl ||| r.2) 0
      = (List.range n).foldl (fun fl l => fl ||| if mask.getLsbD l then (g l).2 else 0) 0 := by
  rw [List.foldl_map]
  congr 1
  funext fl l
  split <;> rfl

/-- An instruction whose result in each lane is a function of the sources in that lane. -/
theorem laneOp_writes {s : State} {c : Ctx} {f : VecForm} {d : VReg} (h : VecReady s c f) (q : Quiet c.w)
    (hd : f.dst = .v32 d) (hc : f.cls ≠ .slide) (h64 : f.src64 = none) (g : Wave → VIn → Nat → Nat × BitVec 6) :
    WritesLanes s c (laneOp s f g) f d (fun l =>
      let y := g (c.entered f) (f.inputs (c.entered f) (c.chain f)) l
      (BitVec.ofNat 32 y.1, y.2)) := by
  have e := vectorOp_leaves h q hd (fun c w x => lanewise w c.f.mask (f.poison x) (g w x))
  have es := c.sources_eq hd hc h64
  unfold WritesLanes LeavesWave laneOp at *
  rw [e]
  simp only [lanewise, VecForm.tag, VecForm.poison, es, foldl_lanewise, Ctx.enter_f, Ctx.entered_width, Ctx.lowest,
    poisonOf]
  rw [vregsWith_congr, latchWith_congr]
  all_goals
    intro l hl hm
    simp [hl, hm, Ctx.entered_width c f ▸ hl]

end Sys2Proof.Machine
end

