-- ==== Sys2Proof/Tests/Slice0.lean ====
section
/-! SUPPORT. The model's own tests: words of the spec's encodings and what they decode to, ill-formed instructions, single
steps, and for every statement with hypotheses a concrete state and operands that meet them. -/

namespace Sys2Proof.Tests

open Sys2Proof.Machine

set_option Elab.async false

/-! ### Decoding (R73 to R94, R392): every instruction of a wave or of a policy -/

theorem test_decode_scalar_1 :
    decode (.word 0x8028C380) = .ok (.sadd 5 6 7)
    ∧ decode (.word 0x8028C381) = .ok (.ssub 5 6 7)
    ∧ decode (.word 0x8028C382) = .ok (.smul 5 6 7)
    ∧ decode (.word 0x8028C383) = .ok (.smulh 5 6 7)
    ∧ decode (.word 0x8028C384) = .ok (.smulhz 5 6 7)
    ∧ decode (.word 0x8028C385) = .ok (.sdiv 5 6 7)
    ∧ decode (.word 0x8028C386) = .ok (.sdivz 5 6 7)
    ∧ decode (.word 0x8028C387) = .ok (.srem 5 6 7)
    ∧ decode (.word 0x8028C388) = .ok (.sremz 5 6 7)
    ∧ decode (.word 0x8028C389) = .ok (.sand 5 6 7)
    ∧ decode (.word 0x8028C38A) = .ok (.sor 5 6 7)
    ∧ decode (.word 0x8028C38B) = .ok (.sxor 5 6 7)
    ∧ decode (.word 0x8028C38C) = .ok (.sshl 5 6 7)
    ∧ decode (.word 0x8028C38D) = .ok (.sshr 5 6 7)
    ∧ decode (.word 0x8028C38E) = .ok (.ssra 5 6 7)
    ∧ decode (.word 0x8028C38F) = .ok (.srol 5 6 7)
    ∧ decode (.word 0x8028C390) = .ok (.smin 5 6 7)
    ∧ decode (.word 0x8028C391) = .ok (.smax 5 6 7)
    ∧ decode (.word 0x8028C392) = .ok (.sminz 5 6 7)
    ∧ decode (.word 0x8028C393) = .ok (.smaxz 5 6 7)
    ∧ decode (.word 0x8028C014) = .ok (.sclz 5 6)
    ∧ decode (.word 0x8028C015) = .ok (.spopc 5 6)
    ∧ decode (.word 0x8028C396) = .ok (.sbfx 5 6 7)
    ∧ decode (.word 0x8028C397) = .ok (.sbfi 5 6 7)
    ∧ decode (.word 0x8028C398) = .ok (.ssel 5 6 7) := by
  decide +kernel

theorem test_decode_scalar_2 :
    decode (.word 0x8000C399) = .ok (.scmp 6 7)
    ∧ decode (.word 0x8000C01A) = .ok (.jmpr 6)
    ∧ decode (.word 0x8000C01B) = .ok (.ret 6)
    ∧ decode (.word 0x8028001C) = .ok (.maskget 5)
    ∧ decode (.word 0x8000C01D) = .ok (.maskset 6)
    ∧ decode (.word 0x8000C01E) = .ok (.mand 6)
    ∧ decode (.word 0x8000C01F) = .ok (.mandn 6)
    ∧ decode (.word 0x8000C020) = .ok (.mor 6)
    ∧ decode (.word 0x80280021) = .ok (.mpopc 5)
    ∧ decode (.word 0x8228CB5A) = .ok (.saddi 5 6 2906)
    ∧ decode (.word 0x8400CB5A) = .ok (.scmpi 6 2906)
    ∧ decode (.word 0x8628CB5A) = .ok (.sandi 5 6 2906)
    ∧ decode (.word 0x8828CB5A) = .ok (.sori 5 6 2906)
    ∧ decode (.word 0x8A28CB5A) = .ok (.sxori 5 6 2906)
    ∧ decode (.word 0x8C28C01A) = .ok (.sshli 5 6 26)
    ∧ decode (.word 0x8E28C01A) = .ok (.sshri 5 6 26)
    ∧ decode (.word 0x9028C01A) = .ok (.ssrai 5 6 26)
    ∧ decode (.word 0x92280B5A) = .ok (.slui 5 2906)
    ∧ decode (.word 0x9428C382) = .ok (.slea 5 6 7 2)
    ∧ decode (.word 0x96000B5A) = .ok (.br 2906)
    ∧ decode (.word 0x98000B5A) = .ok (.call 2906)
    ∧ decode (.word 0x9B200B5A) = .ok (.bc 9 2906)
    ∧ decode (.word 0x9C000B5A) = .ok (.bmz 2906)
    ∧ decode (.word 0x9E000B5A) = .ok (.bmnz 2906)
    ∧ decode (.word 0xA028000A) = .ok (.calli 5 10) := by
  decide +kernel

theorem test_decode_scalar_3 :
    decode (.word 0xA228000A) = .ok (.srd 5 10)
    ∧ decode (.word 0xA400C004) = .ok (.swr 6 4)
    ∧ decode (.parcel 0xFAA5) = .ok (.dictionaryParcel 677) := by
  decide +kernel

theorem test_decode_scalar_memory_1 :
    decode (.word 0xA628CB5A) = .ok (.sldB 5 6 2906)
    ∧ decode (.word 0xA828CB5A) = .ok (.sldH 5 6 2906)
    ∧ decode (.word 0xAA28CB5A) = .ok (.sldW 5 6 2906)
    ∧ decode (.word 0xAC28CB5A) = .ok (.sldD 5 6 2906)
    ∧ decode (.word 0xAE28CB5A) = .ok (.sstB 5 6 2906)
    ∧ decode (.word 0xB028CB5A) = .ok (.sstH 5 6 2906)
    ∧ decode (.word 0xB228CB5A) = .ok (.sstW 5 6 2906)
    ∧ decode (.word 0xB428CB5A) = .ok (.sstD 5 6 2906) := by
  decide +kernel

theorem test_decode_system_1 :
    decode (.word 0xB6030B5A) = .ok (.split 6 2906)
    ∧ decode (.word 0xB9430B5A) = .ok (.evbind 10 6 2906)
    ∧ decode (.word 0xBA28C000) = .ok (.waitany 5 6)
    ∧ decode (.word 0xBC00C000) = .ok (.join 6)
    ∧ decode (.word 0xBC000001) = .ok .yield
    ∧ decode (.word 0xBC000002) = .ok .endw
    ∧ decode (.word 0xBC00C003) = .ok (.launch 6)
    ∧ decode (.word 0xBC00C384) = .ok (.carve 6 7)
    ∧ decode (.word 0xBE000000) = .ok .bar
    ∧ decode (.word 0xBE00C01A) = .ok (.nbarArv 6 10)
    ∧ decode (.word 0xBE00002A) = .ok (.nbarWt 10)
    ∧ decode (.word 0xBE00C03A) = .ok (.mbxSend 6 10)
    ∧ decode (.word 0xBE00C04A) = .ok (.mbxSendRel 6 10)
    ∧ decode (.word 0xBE28C050) = .ok (.evmask 5 6)
    ∧ decode (.word 0xBE280060) = .ok (.evpoll 5)
    ∧ decode (.word 0xBE00C070) = .ok (.evclr 6)
    ∧ decode (.word 0xC0000002) = .ok (.fence 2)
    ∧ decode (.word 0xC000000A) = .ok (.fenceAcq 2)
    ∧ decode (.word 0xC0000012) = .ok (.fenceRel 2)
    ∧ decode (.word 0xC000C01D) = .ok (.racq 6 5)
    ∧ decode (.word 0xC0000020) = .ok .rfence
    ∧ decode (.word 0xC000C028) = .ok (.pref 6)
    ∧ decode (.word 0xC000C3B0) = .ok (.cflush 6 7)
    ∧ decode (.word 0xC000C3B8) = .ok (.cinv 6 7)
    ∧ decode (.word 0xC028C3C0) = .ok (.mscpin 5 6 7) := by
  decide +kernel

theorem test_decode_system_2 :
    decode (.word 0xC000C048) = .ok (.mscunpin 6)
    ∧ decode (.word 0xC228C3CD) = .ok (.satom 5 6 7 9 5)
    ∧ decode (.word 0xC428C3CD) = .ok (.satomAcq 5 6 7 9 5)
    ∧ decode (.word 0xC628C3CD) = .ok (.satomRel 5 6 7 9 5)
    ∧ decode (.word 0xC828C3CD) = .ok (.satomAcqrel 5 6 7 9 5)
    ∧ decode (.word 0xCA28C000) = .ok (.xcopy 5 6 false)
    ∧ decode (.word 0xCA28C008) = .ok (.xgath 5 6 false)
    ∧ decode (.word 0xCA28C010) = .ok (.xred 5 6 false)
    ∧ decode (.word 0xCA28C018) = .ok (.xfill 5 6 false)
    ∧ decode (.word 0xCA280022) = .ok (.bclose 5 2)
    ∧ decode (.word 0xCA00C02A) = .ok (.bwait 6 2)
    ∧ decode (.word 0xCA00C032) = .ok (.cbinit 6 2)
    ∧ decode (.word 0xCA28003A) = .ok (.cbacq 5 2)
    ∧ decode (.word 0xCA00C042) = .ok (.cbcommit 6 2)
    ∧ decode (.word 0xCA00C04A) = .ok (.cbwait 6 2)
    ∧ decode (.word 0xCA00C052) = .ok (.cbrel 6 2)
    ∧ decode (.word 0xCC40C01A) = .ok (.mma 8 6 26)
    ∧ decode (.word 0xCC40C05A) = .ok (.mmaP 8 6 26)
    ∧ decode (.word 0xCE00001A) = .ok (.mzero 26)
    ∧ decode (.word 0xD028C000) = .ok (.nbzero 5 6 false)
    ∧ decode (.word 0xD028C008) = .ok (.nbcopy 5 6 false)
    ∧ decode (.word 0xD028C010) = .ok (.nbaxpy 5 6 false)
    ∧ decode (.word 0xD028C018) = .ok (.nbdot 5 6 false)
    ∧ decode (.word 0xD028C020) = .ok (.nbscal 5 6 false)
    ∧ decode (.word 0xD0000028) = .ok .bfence := by
  decide +kernel

theorem test_decode_system_3 :
    decode (.word 0xD228C000) = .ok (.xar 5 6 false)
    ∧ decode (.word 0xD228C008) = .ok (.xag 5 6 false)
    ∧ decode (.word 0xD228C010) = .ok (.xrs 5 6 false)
    ∧ decode (.word 0xD228C018) = .ok (.xbcst 5 6 false)
    ∧ decode (.word 0xD400035A) = .ok (.trap 858)
    ∧ decode (.word 0xD400075A) = .ok (.sysc 858)
    ∧ decode (.word 0xD4000B5A) = .ok (.brk 858)
    ∧ decode (.word 0xD4000C00) = .ok .tfence
    ∧ decode (.word 0xD4001000) = .ok .tret
    ∧ decode (.word 0xD4001407) = .ok (.causeclr 7)
    ∧ decode (.word 0x6C050600) = .ok (.vldf none 5 6)
    ∧ decode (.word 0x6E050600) = .ok (.vstf none 5 6)
    ∧ decode (.word 0x7005065A) = .ok (.vld none 5 6 90)
    ∧ decode (.word 0x7205065A) = .ok (.vst none 5 6 90)
    ∧ decode (.word 0x74050600) = .ok (.vlds none 5 6 0)
    ∧ decode (.word 0x76050600) = .ok (.vsts none 5 6 0)
    ∧ decode (.word 0x7805065A) = .ok (.vatom none 5 6 90)
    ∧ decode (.word 0x7A05861A) = .ok (.mrd false 5 134 26)
    ∧ decode (.word 0x7C05861A) = .ok (.mwr 5 134 26)
    ∧ decode (.word 0x7E050602) = .ok (.grtag false 5 6 2)
    ∧ decode (.word 0x7E000610) = .ok (.grchk 6)
    ∧ decode (.word 0x7E050622) = .ok (.grdil false 5 6 2)
    ∧ decode (.word 0x7E000032) = .ok (.grlim 2) := by
  decide +kernel

theorem test_decode_vector_1 :
    decode (.word 0x00850607) = .ok (.vadd none true 5 6 7)
    ∧ decode (.word 0x02850607) = .ok (.vsub none true 5 6 7)
    ∧ decode (.word 0x04850607) = .ok (.vmul none true 5 6 7)
    ∧ decode (.word 0x06850607) = .ok (.vmulhI32 none true 5 6 7)
    ∧ decode (.word 0x08850607) = .ok (.vmulhZ32 none true 5 6 7)
    ∧ decode (.word 0x0A850607) = .ok (.vmad none true 5 6 7)
    ∧ decode (.word 0x0C850607) = .ok (.vminI32 none true 5 6 7)
    ∧ decode (.word 0x0E850607) = .ok (.vminZ32 none true 5 6 7)
    ∧ decode (.word 0x10850607) = .ok (.vmaxI32 none true 5 6 7)
    ∧ decode (.word 0x12850607) = .ok (.vmaxZ32 none true 5 6 7)
    ∧ decode (.word 0x14850607) = .ok (.vand none true 5 6 7)
    ∧ decode (.word 0x16850607) = .ok (.vor none true 5 6 7)
    ∧ decode (.word 0x18850607) = .ok (.vxor none true 5 6 7)
    ∧ decode (.word 0x1A850607) = .ok (.vshl none true 5 6 7)
    ∧ decode (.word 0x1C850607) = .ok (.vshr none true 5 6 7)
    ∧ decode (.word 0x1E850607) = .ok (.vsra none true 5 6 7)
    ∧ decode (.word 0x20850607) = .ok (.vshrr none true 5 6 7)
    ∧ decode (.word 0x22850607) = .ok (.vsel none true 5 6 7)
    ∧ decode (.word 0x245A0607) = .ok (.vcmpI32 none 5 10 6 7)
    ∧ decode (.word 0x265A0607) = .ok (.vcmpZ32 none 5 10 6 7)
    ∧ decode (.word 0x28850607) = .ok (.vadd2I16 none true 5 6 7)
    ∧ decode (.word 0x2A850607) = .ok (.vsub2I16 none true 5 6 7)
    ∧ decode (.word 0x2C850607) = .ok (.vmac2I16 none true 5 6 7)
    ∧ decode (.word 0x2E85065A) = .ok (.vaddVi none true 5 6 90)
    ∧ decode (.word 0x3085065A) = .ok (.vandVi none true 5 6 90) := by
  decide +kernel

theorem test_decode_vector_2 :
    decode (.word 0x3285065A) = .ok (.vorVi none true 5 6 90)
    ∧ decode (.word 0x3485065A) = .ok (.vxorVi none true 5 6 90)
    ∧ decode (.word 0x3685061A) = .ok (.vshlVi none true 5 6 26)
    ∧ decode (.word 0x3885061A) = .ok (.vshrVi none true 5 6 26)
    ∧ decode (.word 0x3A85061A) = .ok (.vsraVi none true 5 6 26)
    ∧ decode (.word 0x3C85061A) = .ok (.vshrrVi none true 5 6 26)
    ∧ decode (.word 0x3E850607) = .ok (.vfadd none true 5 6 7)
    ∧ decode (.word 0x40850607) = .ok (.vfsub none true 5 6 7)
    ∧ decode (.word 0x42850607) = .ok (.vfmul none true 5 6 7)
    ∧ decode (.word 0x44850607) = .ok (.vfma none true 5 6 7)
    ∧ decode (.word 0x46850607) = .ok (.vfmin none true 5 6 7)
    ∧ decode (.word 0x48850607) = .ok (.vfmax none true 5 6 7)
    ∧ decode (.word 0x4A2A0607) = .ok (.vfcmp none 2 10 6 7)
    ∧ decode (.word 0x4C850600) = .ok (.vrcp none true 5 6)
    ∧ decode (.word 0x4C850601) = .ok (.vrsq none true 5 6)
    ∧ decode (.word 0x4C850602) = .ok (.vsqrt none true 5 6)
    ∧ decode (.word 0x4C850603) = .ok (.vfract none true 5 6)
    ∧ decode (.word 0x4C850604) = .ok (.vfloor none true 5 6)
    ∧ decode (.word 0x4C850605) = .ok (.vrrt none true 5 6)
    ∧ decode (.word 0x4C850606) = .ok (.vsint none true 5 6)
    ∧ decode (.word 0x4C850607) = .ok (.vcost none true 5 6)
    ∧ decode (.word 0x4C850608) = .ok (.vexp2 none true 5 6)
    ∧ decode (.word 0x4C850609) = .ok (.vlog2 none true 5 6)
    ∧ decode (.word 0x4E850607) = .ok (.vhadd2Bf16 none true 5 6 7)
    ∧ decode (.word 0x50850607) = .ok (.vhadd2F16 none true 5 6 7) := by
  decide +kernel

theorem test_decode_vector_3 :
    decode (.word 0x52850607) = .ok (.vhmul2Bf16 none true 5 6 7)
    ∧ decode (.word 0x54850607) = .ok (.vhmul2F16 none true 5 6 7)
    ∧ decode (.word 0x56850607) = .ok (.vhfma2Bf16 none true 5 6 7)
    ∧ decode (.word 0x58850607) = .ok (.vhfma2F16 none true 5 6 7)
    ∧ decode (.word 0x5A850607) = .ok (.vdot2Bf16 none true 5 6 7)
    ∧ decode (.word 0x5C850607) = .ok (.vdot2F16 none true 5 6 7)
    ∧ decode (.word 0x5E850610) = .ok (.vcvt none true 5 6 1 0)
    ∧ decode (.word 0x6085065A) = .ok (.vslideUp none true 5 6 0 90)
    ∧ decode (.word 0x6285065A) = .ok (.vslideDn none true 5 6 0 90)
    ∧ decode (.word 0x64850600) = .ok (.vswapp true 5 6)
    ∧ decode (.word 0x66850607) = .ok (.vperm true 5 6 7)
    ∧ decode (.word 0x68850607) = .ok (.vbcast true 5 6 7)
    ∧ decode (.word 0x6A850617) = .ok (.vred none true 5 6 1 7) := by
  decide +kernel

theorem test_decode_compass_1 :
    decode (.compass 0x00000000) = .ok .cNop
    ∧ decode (.compass 0x05400B5A) = .ok (.cLdi 5 2906)
    ∧ decode (.compass 0x09400B5A) = .ok (.cLui 5 2906)
    ∧ decode (.compass 0x0D59C000) = .ok (.cAdd 5 6 7)
    ∧ decode (.compass 0x1159C000) = .ok (.cSub 5 6 7)
    ∧ decode (.compass 0x1559C000) = .ok (.cMul 5 6 7)
    ∧ decode (.compass 0x1959C000) = .ok (.cAnd 5 6 7)
    ∧ decode (.compass 0x1D59C000) = .ok (.cOr 5 6 7)
    ∧ decode (.compass 0x2159C000) = .ok (.cXor 5 6 7)
    ∧ decode (.compass 0x2559C000) = .ok (.cShl 5 6 7)
    ∧ decode (.compass 0x2959C000) = .ok (.cShr 5 6 7)
    ∧ decode (.compass 0x2D59C000) = .ok (.cMin 5 6 7)
    ∧ decode (.compass 0x3159C000) = .ok (.cMax 5 6 7)
    ∧ decode (.compass 0x3559C000) = .ok (.cSlt 5 6 7)
    ∧ decode (.compass 0x39580B5A) = .ok (.cAddi 5 6 2906)
    ∧ decode (.compass 0x3D59C000) = .ok (.cSel 5 6 7)
    ∧ decode (.compass 0x4019CB5A) = .ok (.cBeq 6 7 2906)
    ∧ decode (.compass 0x4419CB5A) = .ok (.cBne 6 7 2906)
    ∧ decode (.compass 0x4819CB5A) = .ok (.cBlt 6 7 2906)
    ∧ decode (.compass 0x4C19CB5A) = .ok (.cBge 6 7 2906)
    ∧ decode (.compass 0x50000B5A) = .ok (.cJmp 2906)
    ∧ decode (.compass 0x54001A5A) = .ok (.cLoopn 26 90)
    ∧ decode (.compass 0x59580B5A) = .ok (.cLdq 5 6 2906)
    ∧ decode (.compass 0x5D400B5A) = .ok (.cLde 5 2906)
    ∧ decode (.compass 0x61400B5A) = .ok (.cLds 5 2906) := by
  decide +kernel

theorem test_decode_compass_2 :
    decode (.compass 0x64180B5A) = .ok (.cSts 6 2906)
    ∧ decode (.compass 0x68180000) = .ok (.cRetq 6)
    ∧ decode (.compass 0x6C000000) = .ok .cRetn := by
  decide +kernel
/-! ### Well-formedness (R94): each check refuses an instruction that fails it -/

theorem test_wf_field : Instr.check (.bc 15 0) = some .field ∧ Instr.check (.satom 1 2 3 10 4) = some .field
    ∧ Instr.check (.satomRel 1 2 3 9 7) = some .field ∧ Instr.check (.racq 1 4) = some .field
    ∧ Instr.check (.srd 1 0x00D) = some .field ∧ Instr.check (.swr 1 0x007) = some .field
    ∧ Instr.check (.vcmpI32 none 6 0 1 2) = some .field ∧ Instr.check (.vcvt none false 1 2 3 3) = some .field
    ∧ Instr.check (.vcvt none true 2 2 12 3) = some .field ∧ Instr.check (.vred none false 1 2 3 0) = some .field := by
  decide +kernel

theorem test_wf_parity : Instr.check (.calli 1 3) = some .parity ∧ Instr.check (.mma 3 4 0) = some .parity
    ∧ Instr.check (.vcvt none false 1 2 12 0) = some .parity ∧ Instr.check (.vldf none 1 3) = some .parity
    ∧ Instr.check (.vatom (some { disp := 0, scope := 0, ord := 0, hint := 0, ty := 7, atop := 7 }) 2 0 0)
      = some .parity := by
  decide +kernel

theorem test_wf_source : Instr.check (.vadd none false 1 224 2) = some .source
    ∧ Instr.check (.vfadd none false 1 2 250) = some .source ∧ Instr.check (.mrd false 1 127 0) = some .source
    ∧ Instr.check (.vld none 1 192 0) = some .source ∧ Instr.check (.vcvt none false 1 217 0 12) = some .source := by
  decide +kernel

/-- A modifier word of zeros but RND. -/
def roundWord (r : BitVec 3) : ModWord :=
  { sat := 0, nega := false, negb := false, absa := false, absb := false, scale := 0, rnd := r, srcc := 0 }

theorem test_wf_second : Instr.check (.vadd (some (roundWord 1)) false 1 2 3) = some .second
    ∧ Instr.check (.vfadd (some (roundWord 5)) false 1 2 3) = some .second
    ∧ Instr.check (.vfadd (some (roundWord 4)) false 1 2 3) = none
    ∧ Instr.check (.vld (some { disp := 0, scope := 7, ord := 0, hint := 0, ty := 0, atop := 0 }) 1 2 0) = some .second
    ∧ Instr.check (.vst (some { disp := 0, scope := 0, ord := 1, hint := 0, ty := 0, atop := 0 }) 1 2 0) = some .second
    ∧ Instr.check (.vlds (some { disp := 0, scope := 0, ord := 0, hint := 1, ty := 0, atop := 0 }) 1 2 0)
      = some .second := by
  decide +kernel

theorem test_wf_order : Instr.check (.vcvt none false 1 224 3 3) = some .field
    ∧ Instr.check (.vcvt none false 1 224 12 3) = some .parity := by
  decide +kernel

/-! ### The machine of the tests -/

/-- The wave of the placed grid. -/
def theWave : Wave := Wave.start 1 2 3 0 placedPacket 0 0 0 0 1

/-- The team of the placed grid, with a scratchpad of 16 KiB and two tile halves. -/
def theTeam : Team :=
  { Team.start 1 2 0 0 placedPacket 0 0 0 with
    waves := [4]
    spSize := 16384
    tiles := [Tile.start 0, Tile.start 0] }

/-- The placed machine with the bytes of a program at 0x4000, its wave, its team and the rest changed; its only fragment
executes an instruction of 4 bytes. -/
def machine (code : List Byte) (hw : Wave → Wave) (ht : Team → Team) (hs : State → State) : State :=
  hs { State.reset.placeGrid code with
    cur := some { wave := 4, frag := 0, ilen := 4 }
    waves := [(4, hw theWave)]
    teams := [(3, ht theTeam)] }

/-- The wave with a scalar register. -/
def withS (r : SReg) (v : Word) (w : Wave) : Wave := { w with sregs := w.sregs.set r.toNat ⟨v, 0⟩ }

/-- The wave with every lane of a vector register. -/
def withV (r : Nat) (v : Lane) (w : Wave) : Wave :=
  { w with vregs := w.vregs.set r ⟨List.replicate w.width v, 0, 0⟩ }

/-- The wave whose first fragment is changed. -/
def withFrag (h : Fragment → Fragment) (w : Wave) : Wave :=
  { w with frags := w.frags.map (Option.map h) }

/-- What Ready asks of the wave of a fragment. -/
def readyWave (w : Wave) (ss vs : List Nat) : Bool :=
  w.budget ss vs && !w.pendingAny ss && w.doneRegs.all (fun r => !ss.contains r) && w.faults.isEmpty

theorem ready_of_wave {s : State} {c : Ctx} {ss vs : List Nat} (hc : s.ctx? = some c)
    (h : readyWave c.w ss vs = true) : Ready s c ss vs := by
  simp only [readyWave, Bool.and_eq_true, Bool.not_eq_true', List.all_eq_true, List.isEmpty_iff,
    List.contains_eq_mem, decide_eq_false_iff_not] at h
  exact ⟨hc, h.1.1.1, h.1.1.2, h.1.2, h.2⟩

/-- A fragment executes, its wave has the registers, none of them pending, and more holds. -/
theorem ready_of {s : State} {ss vs : List Nat} (p : Ctx → Prop) [DecidablePred p]
    (h : s.ctx?.any (fun c => readyWave c.w ss vs && decide (p c)) = true) :
    ∃ c, Ready s c ss vs ∧ p c := by
  cases hc : s.ctx? with
  | none => simp [hc] at h
  | some c =>
    simp only [hc, Option.any_some, Bool.and_eq_true, decide_eq_true_eq] at h
    exact ⟨c, ready_of_wave hc h.1, h.2⟩

/-- The same of a vector instruction. -/
theorem vec_of {s : State} (f : VecForm) (p : Ctx → Prop) [DecidablePred p]
    (h : s.ctx?.any (fun c => readyWave c.w f.sregs f.vregs
      && f.latches.all (fun i => decide (i < c.open'.length)) && decide (p c)) = true) :
    ∃ c, VecReady s c f ∧ p c := by
  cases hc : s.ctx? with
  | none => simp [hc] at h
  | some c =>
    simp only [hc, Option.any_some, Bool.and_eq_true, decide_eq_true_eq, List.all_eq_true] at h
    exact ⟨c, ⟨ready_of_wave hc h.1.1, h.1.2⟩, h.2⟩

/-- A fragment executes, and more holds. -/
theorem runs_of {s : State} (p : Ctx → Prop) [DecidablePred p]
    (h : s.ctx?.any (fun c => decide (p c)) = true) : ∃ c, s.ctx? = some c ∧ p c := by
  cases hc : s.ctx? with
  | none => simp [hc] at h
  | some c => exact ⟨c, rfl, by simpa [hc] using h⟩

/-! ### Witnesses: scalar instructions -/

/-- The machine as it is placed. -/
def plain : State := machine [] id id id

theorem witness_ScalarArithmetic : ∃ c, Ready plain c [1, 2, 3] [] ∧ c.w.s 2 = 0 := ready_of _ (by decide +kernel)

theorem witness_ScalarArithmetic_bits : ∃ c, Ready plain c [63, 62, 61] [] ∧ True := ready_of _ (by decide +kernel)

theorem witness_ScalarImmediates : ∃ c, Ready plain c [1, 2] [] ∧ Ready plain c [1, 2, 3] [] := by
  obtain ⟨c, h, -⟩ := ready_of (s := plain) (ss := [1, 2, 3]) (vs := []) (fun _ => True) (by decide +kernel)
  obtain ⟨d, h', -⟩ := ready_of (s := plain) (ss := [1, 2]) (vs := []) (fun _ => True) (by decide +kernel)
  have e : d = c := Option.some.inj (h'.runs.symm.trans h.runs)
  exact ⟨c, e ▸ h', h⟩

theorem witness_ScalarCompares : ∃ c, Ready plain c [1, 2] [] ∧ True := ready_of _ (by decide +kernel)

theorem witness_Branches : ∃ c, Ready plain c [63] [] ∧ c.f.mask ≠ 0 := ready_of _ (by decide +kernel)

/-- Three words, then a function header for 16 vector and 8 scalar registers. -/
def callCode : List Byte := [0, 0, 0, 0, 0, 0, 0, 0, 0, 0, 0, 0, 0xA5, 0xE0, 0x08, 0x10]

/-- A lane pair that holds the address of the header in every lane. -/
def callMachine (mask : LaneMask) : State :=
  machine callCode (fun w => withFrag (fun f => { f with mask := mask }) (withV 10 0x400C w)) id id

theorem witness_Calls_header : ∃ c, Ready (callMachine 1) c [63] [] ∧ HeaderAt (callMachine 1) c 0x400C
    ∧ c.f.pc + 2 * (6#25).signExtend 64 = 0x400C := by
  obtain ⟨c, h, h1, h2, h3⟩ := ready_of (s := callMachine 1) (ss := [63]) (vs := [])
    (fun c => (callMachine 1).fetchWord c.wid c.w c.g 0x400C = .ok 0xE0A51008 ∧ (c.w.nv = 128 ∧ c.w.ns = 64)
      ∧ c.f.pc + 2 * (6#25).signExtend 64 = 0x400C) (by decide +kernel)
  exact ⟨c, h, ⟨by decide, _, h1, by decide, by decide, by decide, by decide, by decide, by decide, by simp [h2.1],
    by simp [h2.2]⟩, h3⟩

theorem witness_Calls_inactive : ∃ c, Ready (callMachine 0) c [5] [10, 11] ∧ c.f.mask = 0 := ready_of _ (by decide +kernel)

theorem witness_Calls_active : ∃ c, Ready (callMachine 0x80000001) c [5] [10, 11] ∧ c.f.mask.getLsbD 31 = true
    ∧ (∀ l < c.w.width, c.f.mask.getLsbD l = true → (c.w.v 11).lane l ++ (c.w.v 10).lane l = 0x400C#64)
    ∧ ((c.w.v 10).poison ||| (c.w.v 11).poison) &&& c.f.mask = 0 := ready_of _ (by decide +kernel)

/-- A wave of 128 lanes. -/
def wideWave : State := machine [] (fun w => { w with width := 128 }) id id

theorem witness_ScalarImmediates_illegal : (0x8C000040#32).getLsbD 31 = true ∧ 6 ≤ ((0x8C000040#32).extractLsb' 25 6).toNat
    ∧ ((0x8C000040#32).extractLsb' 25 6).toNat ≤ 8 ∧ 64 ≤ ((0x8C000040#32).extractLsb' 0 13).toNat
    ∧ decode (.word 0x8C00003F) = .ok (.sshli 0 0 63) := by decide +kernel

theorem witness_Masks : (∃ c, Ready plain c [63] [] ∧ ¬ (c.w.width = 128 ∧ (63#6).toNat % 2 = 1))
    ∧ ∃ c, Ready wideWave c [62, 63] [] ∧ c.w.width = 128 ∧ ¬ (c.w.width = 128 ∧ (62#6).toNat % 2 = 1) :=
  ⟨ready_of _ (by decide +kernel), ready_of _ (by decide +kernel)⟩

theorem witness_Masks_odd : ∃ c, wideWave.ctx? = some c ∧ c.w.width = 128 ∧ (63#6).toNat % 2 = 1 ∧ c.w.inh = none
    ∧ c.g.packet.tvec ≠ 0 := by
  obtain ⟨c, ⟨h, -, -⟩, hp⟩ := ready_of (s := wideWave) (ss := []) (vs := []) (fun c => c.w.width = 128 ∧ (63#6).toNat % 2 = 1
    ∧ c.w.inh = none ∧ c.g.packet.tvec ≠ 0) (by decide +kernel)
  exact ⟨c, h, hp⟩

theorem witness_SpecialRegisters : ∃ c, Ready plain c [63] [] ∧ (plain.vd c.g.vd).inj = false :=
  ready_of _ (by decide +kernel)

/-- A device that has injection enabled. -/
theorem witness_SpecialRegisters_inj : ∃ c, Ready (machine [] id id (fun s => { s with vds := TabOps.put s.vds 0 { s.vd 0 with
    inj := true } })) c [63] [] ∧ True := ready_of _ (by decide +kernel)


theorem witness_EventRegisters : (∃ c, Ready plain c [63, 62] [] ∧ c.w.evovf = false) ∧ ∃ c, Ready plain c [63] [] ∧ True :=
  ⟨ready_of _ (by decide +kernel), ready_of _ (by decide +kernel)⟩
/-! ### Witnesses: vector arithmetic -/

/-- A wave with an open chain of one instruction. -/
def chained : State := machine [] (fun w => { w with latches := [⟨List.replicate 32 7, 0, 0⟩] }) id id

theorem witness_VectorIntegers : (∃ c, VecReady plain c (.arith .int none false 1 [2, 192] false) ∧ Quiet c.w)
    ∧ (∃ c, VecReady plain c (.arith .int (some (roundWord 0)) true 1 [2, 3] true) ∧ Quiet c.w)
    ∧ ∃ c, VecReady chained c (.arith .int none false 1 [252, 3] true) ∧ Quiet c.w :=
  ⟨vec_of _ _ (by decide +kernel), vec_of _ _ (by decide +kernel), vec_of _ _ (by decide +kernel)⟩

theorem witness_VectorImmediates : ∃ c, VecReady chained c (.arith .int none true 127 [252] false) ∧ Quiet c.w :=
  vec_of _ _ (by decide +kernel)

theorem witness_VectorPacked : (∃ c, VecReady plain c (.arith .int none false 1 [2, 3] false) ∧ Quiet c.w)
    ∧ ∃ c, VecReady plain c (.arith .int none false 1 [2, 3] true) ∧ Quiet c.w :=
  ⟨vec_of _ _ (by decide +kernel), vec_of _ _ (by decide +kernel)⟩

/-- A wave whose register V2 is poisoned in lane 31. -/
def poisonedV2 : State := machine [] (fun w => { w with vregs := w.vregs.set 2 ⟨List.replicate 32 1, 0, 0x80000000⟩ }) id id

theorem witness_VectorCompares : (∃ c, VecReady plain c (.compare none 15 2 3) ∧ Quiet c.w
      ∧ poisonOf (c.sources (.compare none 15 2 3)) &&& c.f.mask = 0)
    ∧ ∃ c, VecReady poisonedV2 c (.compare none 0 2 3) ∧ poisonOf (c.sources (.compare none 0 2 3)) &&& c.f.mask ≠ 0 :=
  ⟨vec_of _ _ (by decide +kernel), vec_of _ _ (by decide +kernel)⟩

theorem witness_VectorCompares_cond : ∀ x y : Int, decide (x < y) = true ↔ x < y := fun _ _ => decide_eq_true_iff

theorem witness_VectorFloats : (∃ c, VecReady plain c (.arith .float none false 1 [2, 218] false) ∧ Quiet c.w)
    ∧ ∃ c, VecReady plain c (.arith .float (some (roundWord 4)) false 1 [2, 3] true) ∧ Quiet c.w :=
  ⟨vec_of _ _ (by decide +kernel), vec_of _ _ (by decide +kernel)⟩

theorem witness_VectorHalves : (∃ c, VecReady plain c (.arith .float none false 1 [2, 3] false) ∧ Quiet c.w)
    ∧ ∃ c, VecReady chained c (.arith .float none false 1 [2, 252] true) ∧ Quiet c.w :=
  ⟨vec_of _ _ (by decide +kernel), vec_of _ _ (by decide +kernel)⟩

theorem witness_VectorFunctions : ∃ c, VecReady plain c (.arith .float (some (roundWord 1)) false 1 [2] false) ∧ Quiet c.w :=
  vec_of _ _ (by decide +kernel)

theorem witness_VectorConversions : (∃ c, VecReady plain c (.convert none false 1 2 1 0) ∧ Quiet c.w)
    ∧ (∃ c, VecReady plain c (.convert none false 2 4 0 13) ∧ Quiet c.w)
    ∧ (∃ c, VecReady plain c (.convert none false 126 4 12 0) ∧ Quiet c.w)
    ∧ ∃ c, VecReady plain c (.convert none false 2 4 12 13) ∧ Quiet c.w :=
  ⟨vec_of _ _ (by decide +kernel), vec_of _ _ (by decide +kernel), vec_of _ _ (by decide +kernel),
    vec_of _ _ (by decide +kernel)⟩

theorem witness_LaneMovement : (∃ c, VecReady plain c (.arith .slide none false 1 [2] false) ∧ Quiet c.w)
    ∧ (∃ c, VecReady chained c (.bare false [252] (.v32 1)) ∧ Quiet c.w)
    ∧ (∃ c, VecReady plain c (.bare true [2, 3] (.v32 1)) ∧ Quiet c.w)
    ∧ ∃ c, VecReady plain c (.arith .red none false 1 [2] false) ∧ Quiet c.w :=
  ⟨vec_of _ _ (by decide +kernel), vec_of _ _ (by decide +kernel), vec_of _ _ (by decide +kernel),
    vec_of _ _ (by decide +kernel)⟩

/-- A wave of execution grade 3 with registers of grade 0. -/
def grade3 : State := machine [] (fun w => { w with gst := 3, launchG := 3 }) id id

theorem witness_GradeInstructions : (∃ c, VecReady plain c (.bare false [2] (.v32 1)) ∧ Quiet c.w
      ∧ (Grade.min 3 (c.entered (.bare false [2] (.v32 1))).eg).toNat
        ≤ ((c.entered (.bare false [2] (.v32 1))).source (c.chain (.bare false [2] (.v32 1))) 2).tag.toNat)
    ∧ (∃ c, VecReady grade3 c (.bare false [2] (.v32 1)) ∧ Quiet c.w
      ∧ ((c.entered (.bare false [2] (.v32 1))).source (c.chain (.bare false [2] (.v32 1))) 2).tag.toNat
        < (Grade.min 3 (c.entered (.bare false [2] (.v32 1))).eg).toNat)
    ∧ (∃ c, VecReady chained c (.bare false [252] .none) ∧ Quiet c.w
      ∧ ((c.entered (.bare false [252] .none)).source (c.chain (.bare false [252] .none)) 252).poison &&& c.f.mask = 0)
    ∧ (∃ c, VecReady poisonedV2 c (.bare false [2] .none)
      ∧ ((c.entered (.bare false [2] .none)).source (c.chain (.bare false [2] .none)) 2).poison &&& c.f.mask ≠ 0)
    ∧ ∃ c, VecReady plain c (.bare false [] .none) ∧ Quiet c.w :=
  ⟨vec_of _ _ (by decide +kernel), vec_of _ _ (by decide +kernel), vec_of _ _ (by decide +kernel),
    vec_of _ _ (by decide +kernel), vec_of _ _ (by decide +kernel)⟩

/-- A wave of execution grade 2 whose next repeated instruction is struck in some runs, at bits of its result. -/
def struck (bits : List (Nat × Nat)) : State := machine [] (fun w => { w with
  gst := 2
  faults := bits.map (fun b => { run := b.1, lane := 0, bit := b.2 }) }) id id

/-- What a vote of SADD asks of the wave. -/
abbrev MayVote (c : Ctx) : Prop := c.w.budget [1, 2, 3] [] = true ∧ c.w.pendingAny [1, 2, 3] = false ∧ c.w.doneRegs = []
  ∧ c.w.ginj.getLsbD 15 = false ∧ 2 ≤ c.w.egNow.toNat

theorem witness_GradeInstructions_vote : (∃ c, (struck [(1, 5)]).ctx? = some c ∧ MayVote c ∧ c.w.s 2 + c.w.s 3 = 0)
    ∧ (∃ c, (struck [(0, 63), (1, 0)]).ctx? = some c ∧ MayVote c ∧ c.w.faults.length = 2) :=
  ⟨runs_of _ (by decide +kernel), runs_of _ (by decide +kernel)⟩

/-! ### Witnesses: memory instructions -/

/-- The machine whose S2 holds an address. -/
def atAddress (va : Word) : State := machine [] (withS 2 va) id id

theorem witness_ScalarLoads : ∃ c, Ready (atAddress 0x100FFE) c [1, 2] []
    ∧ (∀ n ∈ [1, 2, 4, 8], ((atAddress 0x100FFE).locate (c.route (atAddress 0x100FFE)).at' c.g.vd .load 0 (c.w.s 2 + (0x1FFF#13).signExtend 64) n).causes
        = 0)
    ∧ Served (atAddress 0x100FFE) c false
        ((atAddress 0x100FFE).locate (c.route (atAddress 0x100FFE)).at' c.g.vd .load 0 (c.w.s 2 + (0x1FFF#13).signExtend 64) 8).parts :=
  ready_of _ (by decide +kernel)

theorem witness_ScalarStores : ∃ c, Ready (atAddress 0x100FFE) c [1, 2] []
    ∧ ((atAddress 0x100FFE).locate (c.route (atAddress 0x100FFE)).at' c.g.vd .store 0 (c.w.s 2 + (0#13).signExtend 64) 8).causes = 0
    ∧ ∀ q ∈ ((atAddress 0x100FFE).locate (c.route (atAddress 0x100FFE)).at' c.g.vd .store 0 (c.w.s 2 + (0#13).signExtend 64) 8).parts,
        q.leaf.grade.toNat ≤ (c.w.stag 1).toNat := ready_of _ (by decide +kernel)

theorem witness_ScalarAccessFaults : ∃ c, Ready (atAddress 0x40000000) c [1, 2] []
    ∧ (atAddress 0x40000000).translate (c.route (atAddress 0x40000000)).at' c.g.vd (c.w.s 2 + (0#13).signExtend 64) .load = .error .xlate
    ∧ (atAddress 0x40000000).translate (c.route (atAddress 0x40000000)).at' c.g.vd (c.w.s 2 + (0#13).signExtend 64) .store = .error .xlate :=
  ready_of _ (by decide +kernel)

/-- The addresses of a pair V2:V3 that names one address in every lane. -/
def atLanes (va : Lane) (h : Fragment → Fragment) : State := machine [] (fun w => withFrag h (withV 2 va (withS 2 0x100000 w))) id id

theorem witness_FlatLoads_inactive : ∃ c, Ready (atLanes 0 (fun f => { f with mask := 0 })) c [] [2, 3, 8, 9] ∧ c.f.mask = 0 :=
  ready_of _ (by decide +kernel)

theorem witness_FlatLoads : ∃ c, Ready (atLanes 0x100000 id) c [] [2, 3, 8] ∧ c.active ≠ []
    ∧ c.w.basePoison 2 true &&& c.f.mask = 0
    ∧ (∀ l ∈ c.active, ((atLanes 0x100000 id).locate (c.route (atLanes 0x100000 id)).at' c.g.vd .load l ((c.w.v 3).lane l ++ (c.w.v 2).lane l) 4).causes = 0)
    ∧ Served (atLanes 0x100000 id) c false (c.active.flatMap (fun l =>
        ((atLanes 0x100000 id).locate (c.route (atLanes 0x100000 id)).at' c.g.vd .load l ((c.w.v 3).lane l ++ (c.w.v 2).lane l) 4).parts))
    ∧ bit c.w.ginj 40 = false := ready_of _ (by decide +kernel)

theorem witness_FlatStores : ∃ c, Ready (atLanes 0x100000 id) c [2] [8] ∧ c.f.mask ≠ 0
    ∧ c.w.basePoison 130 true &&& c.f.mask = 0 ∧ (c.w.v 8).poison &&& c.f.mask = 0
    ∧ ∀ l ∈ c.active, ((atLanes 0x100000 id).locate (c.route (atLanes 0x100000 id)).at' c.g.vd .store l (c.w.s 2 + BitVec.ofNat 64 (l * 4)) 4).causes = 0
      ∧ ∀ q ∈ ((atLanes 0x100000 id).locate (c.route (atLanes 0x100000 id)).at' c.g.vd .store l (c.w.s 2 + BitVec.ofNat 64 (l * 4)) 4).parts,
          q.leaf.grade.toNat ≤ (c.w.v 8).tag.toNat := ready_of _ (by decide +kernel)

/-- A record: bytes 0x200000 up, 4 KiB, usable. -/
def theRecord : BufRec.Words := [0x200000, 0x1000, 0, 0, 1]

/-- The machine whose grid has a table of one record at 0x300000, and lanes of V2 that hold an offset. -/
def withRecord (off : Lane) : State := machine [] (withV 2 off) id (fun s => { s with
  grids := TabOps.mapVals (fun _ g => { g with packet := { g.packet with
    recN := 1
    recA := 0x300000 } }) s.grids
  dram := MemOps.writeBytes s.dram 0x300000 (theRecord.flatMap (fun w => leBytes w.toNat 8)) })

/-- A memory word of b32, with an atomic operation. -/
def word32 (op : BitVec 5) : MemWord := { disp := 0, scope := 0, ord := 0, hint := 0, ty := 6, atop := op }

theorem witness_RecordAccesses_load : ∃ c, Ready (withRecord 0xFFC) c [] [2, 8]
    ∧ (withRecord 0xFFC).record (c.route (withRecord 0xFFC)) c.g 0 = .ok theRecord ∧ c.w.budget [] [8] = true
    ∧ c.active ≠ [] ∧ c.w.basePoison 2 false &&& c.f.mask = 0
    ∧ (let s' := (withRecord 0xFFC).recKeep (c.route (withRecord 0xFFC)) c.g 0 theRecord
       let load := c.ended.recAccs s' theRecord .load (word32 0) 2
       (∀ x ∈ load, x.causes = 0) ∧ Served s' c false (partsOf load) ∧ Served s' c false (auxOf load))
    ∧ Waited (withRecord 0xFFC) c (c.route (withRecord 0xFFC)).past false
        ((withRecord 0xFFC).recParts (c.route (withRecord 0xFFC)) c.g 0)
    ∧ bit c.w.ginj 40 = false := ready_of _ (by decide +kernel)

theorem witness_RecordAccesses_store : ∃ c, Ready (withRecord 0xFFC) c [] [2, 8]
    ∧ (withRecord 0xFFC).record (c.route (withRecord 0xFFC)) c.g 0 = .ok theRecord ∧ c.w.budget [] [8] = true
    ∧ c.active ≠ [] ∧ c.w.basePoison 2 false &&& c.f.mask = 0
    ∧ (let s' := (withRecord 0xFFC).recKeep (c.route (withRecord 0xFFC)) c.g 0 theRecord
       let store := c.ended.recAccs s' theRecord .store (word32 0) 2
       (∀ x ∈ store, x.causes = 0) ∧ (c.w.v 8).poison &&& c.f.mask = 0
       ∧ Waited s' c (c.route (withRecord 0xFFC)) false (auxOf store)
       ∧ Waited (withRecord 0xFFC) c (c.route (withRecord 0xFFC)).past false
          ((withRecord 0xFFC).recParts (c.route (withRecord 0xFFC)) c.g 0)
       ∧ ∀ q ∈ partsOf store, q.leaf.grade.toNat ≤ (c.w.v 8).tag.toNat) := ready_of _ (by decide +kernel)

theorem witness_ScratchpadAccesses : ∃ c, Ready (withRecord 16380) c [] [2, 8] ∧ c.active ≠ []
    ∧ c.w.basePoison 2 false &&& c.f.mask = 0
    ∧ (∀ l ∈ c.active, (withRecord 16380).spBytes c.w.team c.t c.g false (((c.w.v 2).lane l).zeroExtend 64) 4
        = .ok [(3, 16380), (3, 16381), (3, 16382), (3, 16383)])
    ∧ (∀ l ∈ c.active, (withRecord 16380).spBytes c.w.team c.t c.g true (((c.w.v 2).lane l).zeroExtend 64) 4
        = .ok [(3, 16380), (3, 16381), (3, 16382), (3, 16383)])
    ∧ (∀ q ∈ [(3, 16380), (3, 16381), (3, 16382), (3, 16383)], (withRecord 16380).spPoison q = false)
    ∧ (c.w.v 8).poison &&& c.f.mask = 0 := ready_of _ (by decide +kernel)

/-- A leaf of 1 GiB for every access. -/
def gib : Leaf := { entry := 0x3D, size := 2 ^ 30, frame := 0 }

/-- The part of an atomic on 8 bytes. -/
def atomPart (va : Word) : Part := { lane := 0, va := va, pa := va.toNat, n := 8, leaf := gib }

theorem witness_ScalarAtomics : ∃ c, Ready (atAddress 0x100FF8) c [1, 2, 3] [] ∧ (c.w.s 2).toNat % 8 = 0
    ∧ ((atAddress 0x100FF8).locate (c.route (atAddress 0x100FF8)).at' c.g.vd .atomic 0 (c.w.s 2) 8).parts = [atomPart 0x100FF8]
    ∧ (∀ x < 7, ((atAddress 0x100FF8).atomicPlace (c.route (atAddress 0x100FF8)) x 0x100FF8 8).atomicBad
        (c.route (atAddress 0x100FF8)) x 0x100FF8 8 gib = none)
    ∧ gib.grade.toNat ≤ (c.w.stag 3).toNat ∧ gib.grade.toNat ≤ (c.w.stag 1).toNat := ready_of _ (by decide +kernel)

theorem witness_VectorAtomics : ∃ c, Ready (withRecord 0xFFC) c [] [2, 8]
    ∧ (withRecord 0xFFC).record (c.route (withRecord 0xFFC)) c.g 0 = .ok theRecord ∧ c.active ≠ []
    ∧ (c.w.basePoison 2 false ||| poisonOf ([8].map c.w.v)) &&& c.f.mask = 0
    ∧ (let r := c.route (withRecord 0xFFC)
       let s1 := (withRecord 0xFFC).recKeep r c.g 0 theRecord
       let as := c.ended.atomAccs s1 theRecord (word32 0) 2 4
       let s2 := (s1.keepParts r (allParts as)).loadParts r 0 0 (auxOf as)
       let s4 := s2.atomicOpen r 0 (partsOf as)
       let y := c.ended.atomLanes (word32 0) 8 4 (fun p => s4.atomicBad r 0 p.pa 4 p.leaf) as (s4.atomicReads r 0 (partsOf as))
       (∀ x ∈ as, x.causes = 0) ∧ (∀ p ∈ partsOf as, p.leaf.grade.toNat ≤ (c.w.v 8).tag.toNat) ∧ y.2.2.2 = []
       ∧ y.2.2.1 = 0 ∧ Waited (withRecord 0xFFC) c r.past false ((withRecord 0xFFC).recParts r c.g 0)
       ∧ Waited s1 c r false (auxOf as)
       ∧ (as.getLast?.map LaneAcc.parts).any (fun ps => ps.map Part.pa == [0x200FFC]) = true) := ready_of _ (by decide +kernel)

/-- The machine whose L1 of core 0 holds a line with one dirty byte. -/
def dirtyL1 : State := machine [] id id (fun s => { s with cores := [(0, { Core.reset with
  l1 := [(8192, { data := List.replicate 128 9, valid := 0, dirty := 1, sc := 2, prot := false, team := 3 })] })] })

theorem witness_Fences : ∃ c, dirtyL1.ctx? = some c ∧ (c.route dirtyL1).fused = [] ∧ (c.route dirtyL1).share < (4#3).toNat
    ∧ ((dirtyL1.core (c.route dirtyL1).own).l1.map Prod.fst).Nodup
    ∧ (dirtyL1.l1 (c.route dirtyL1).own 8192).any (fun l => decide (l.sc.toNat ≤ min 4 6) && l.dirty.getLsbD 0
        && l.data.length == 128) = true := runs_of _ (by decide +kernel)

/-- With no CXL port enumerated and no die in Twilight, no line's port is down. -/
theorem no_line_down {s : State} (h : s.cxl = List.replicate 12 CxlPort.reset) (ht : s.inTwilight = false) (line : Nat) :
    s.lineDown line = false := by
  have hp : ∀ p, s.port p = CxlPort.reset := by
    intro p
    simp only [State.port, h, List.getD_eq_getElem?_getD, List.getElem?_replicate]
    split <;> rfl
  unfold State.lineDown State.homeState
  split
  · split <;> rfl
  · split
    · rfl
    · simp [hp, CxlPort.reset, ht]

theorem witness_lines_up : ∀ line, dirtyL1.lineDown line = false := no_line_down (by decide +kernel) (by decide +kernel)

theorem witness_CacheMaintenance : ∃ c, Ready (atAddress 0x100000) c [2] []
    ∧ (atAddress 0x100000).translate (c.route (atAddress 0x100000)).at' c.g.vd (c.w.s 2) .load = .ok (gib, 0x100000)
    ∧ (atAddress 0x100000).badLines (c.route (atAddress 0x100000)) false
        [{ lane := 0, va := c.w.s 2, pa := 0x100000, n := 128, leaf := gib }] = []
    ∧ (c.route (atAddress 0x100000)).fused = [] ∧ (c.route (atAddress 0x100000)).share < 5 := ready_of _ (by decide +kernel)

/-- The same L1, whose core owns the line, and its address in S2. -/
def owned : State := machine [] (withS 2 0x100000) id (fun s => { s with
  cores := dirtyL1.cores
  owners := [(8192, 0)] })

theorem owned_here : OnlyHere owned 0 0x100000 := by
  intro j l hj h
  have : (owned.core j).l1 = [] := by
    simp [State.core, TabOps.get, owned, machine, dirtyL1, TabOps.find?, Ne.symm hj, Core.reset]
  simp [State.l1, this, TabOps.find?] at h

theorem witness_CacheMaintenance_owner : ∃ c, Ready owned c [2] []
    ∧ owned.translate (c.route owned).at' c.g.vd (c.w.s 2) .load = .ok (gib, 0x100000)
    ∧ TabOps.find? owned.owners 8192 = some 0 ∧ 0 ∈ owned.fusedWith 0 ∧ ((owned.core 0).l1.map Prod.fst).Nodup
    ∧ (owned.l1 0 8192).any (fun l => decide (l.sc.toNat ≤ 4) && l.dirty.getLsbD 0) = true
    ∧ owned.lineDown 8192 = false ∧ owned.codes = [] := ready_of _ (by decide +kernel)

theorem witness_CacheMaintenance_pref : ∃ c, Ready (atAddress 0x100000) c [2] []
    ∧ (atAddress 0x100000).lineServed (c.route (atAddress 0x100000)) false
        [{ lane := 0, va := c.w.s 2, pa := 0x100000, n := 128, leaf := gib }] 8192 = false
    ∧ (atAddress 0x100000).mscHolds 8192 0 128 = false := ready_of _ (by decide +kernel)

theorem witness_CacheMaintenance_range : ∃ c, Ready (atAddress 0x100000) c [2, 3] []
    ∧ (atAddress 0x100000).rangeLines (c.route (atAddress 0x100000)) (c.w.s 2).toNat 129 = [8192, 8193] :=
  ready_of _ (by decide +kernel)

/-- The machine with a window of one block in S2 and S3, in pages that may be pinned. -/
def pinning (v : Word) (quota : Nat) : State := machine [] (fun w => withS 3 v (withS 2 0x100000 w)) id (fun s => { s with
  dram := MemOps.write s.dram 4097 4
  vds := TabOps.put s.vds 0 { s.vd 0 with pinq := quota } })

/-- The pages of that window. -/
def windowOf : List (Nat × Leaf) := (List.range 16).map (fun i => (0x100000 + 4096 * i, { gib with entry := 0x43D }))

/-- What MSCPIN asks of its operands. -/
abbrev LegalWindow (a v : Word) : Prop :=
  a.toNat % 65536 = 0 ∧ v.toNat < 2 ^ 32 ∧ v.toNat / 256 % 2 ^ 24 ≠ 0 ∧ v.toNat % 256 ≠ 0

/-- The window translates, to these pages. -/
abbrev WindowIs (s : State) (c : Ctx) (ps : List (Nat × Leaf)) : Prop :=
  let x := s.windowPages (c.route s) (c.w.s 2) 16
  x.causes = 0 ∧ x.parts.map (fun p => (p.pa, p.leaf)) = ps

theorem witness_Pinning_illegal : ∃ c, Ready (pinning 0x100 1) c [1, 2, 3] [] ∧ ¬ LegalWindow (c.w.s 2) (c.w.s 3) :=
  ready_of _ (by decide +kernel)

/-- The same operands, in pages that may not be pinned. -/
def unpinnable : State := machine [] (fun w => withS 3 0x1FF (withS 2 0x100000 w)) id id

theorem witness_Pinning_fails : ∃ c, Ready unpinnable c [1, 2, 3] [] ∧ LegalWindow (c.w.s 2) (c.w.s 3)
    ∧ WindowIs unpinnable c (windowOf.map (fun x => (x.1, gib)))
    ∧ (unpinnable.pinCheck (c.route unpinnable) (windowOf.map (fun x => (x.1, gib)))).1 = 2 :=
  ready_of _ (by decide +kernel)

/-- The lines of the window fall into sets of their own. -/
theorem window_sets : setsOf (windowOf.map (fun p => p.1 / 4096)) = List.range' 8192 512 := by decide +kernel

theorem window_pages : (windowOf.map (fun p => p.1 / 4096)).eraseDups = windowOf.map (fun p => p.1 / 4096) := by
  decide +kernel

theorem window_fits {s : State} (h : s.pins = []) (hf : (s.die 0).far = 4) :
    s.pinOverflow 0 (windowOf.map (fun p => p.1 / 4096)) = false := by
  simp only [State.pinOverflow, h, hf, List.filter_nil, List.flatMap_nil, List.append_nil, window_pages, window_sets,
    List.any_eq_false, decide_eq_true_eq]
  intro k _
  have := List.nodup_iff_count_le_one.1 (List.nodup_range' (s := 8192) (n := 512)) k
  omega

theorem witness_Pinning : ∃ c, Ready (pinning 0x1FF 1) c [1, 2, 3] [] ∧ LegalWindow (c.w.s 2) (c.w.s 3)
    ∧ WindowIs (pinning 0x1FF 1) c windowOf
    ∧ ((pinning 0x1FF 1).pinCheck (c.route (pinning 0x1FF 1)) windowOf).1 = 0 := by
  obtain ⟨c, h, h1, h2, h3⟩ := ready_of (s := pinning 0x1FF 1) (ss := [1, 2, 3]) (vs := []) (fun c =>
    LegalWindow (c.w.s 2) (c.w.s 3)
    ∧ WindowIs (pinning 0x1FF 1) c windowOf
    ∧ (c.route (pinning 0x1FF 1)).vd = 0) (by decide +kernel)
  refine ⟨c, h, h1, h2, ?_⟩
  have hd : (pinning 0x1FF 1).homeDie (((windowOf.head?).map Prod.fst).getD 0) = 0 := by decide +kernel
  simp only [State.pinCheck, hd, h3]
  rw [if_neg (by decide +kernel), show (pinning 0x1FF 1).freePin 0 = some 0 by decide +kernel]
  simp only []
  rw [window_fits (by decide +kernel) (by decide +kernel), if_neg Bool.false_ne_true, if_neg (by decide +kernel)]

/-! ### Witnesses: parallel execution -/

theorem witness_SplitsAndJoins : (∃ c, Ready (atAddress 0) c [2] [] ∧ ¬ (c.w.width = 128 ∧ (2#6).toNat % 2 = 1)
      ∧ (atAddress 0).fetchParcel c.wid c.w c.g c.following = .ok 0 ∧ c.f.lanes &&& ((c.w.s 2).zeroExtend 128 &&& c.w.everyLane) = 0)
    ∧ (∃ c, Ready (atAddress 0xFFFFFFFF) c [2] []
      ∧ (atAddress 0xFFFFFFFF).fetchParcel c.wid c.w c.g c.following = .ok 0
      ∧ c.f.lanes &&& ((c.w.s 2).zeroExtend 128 &&& c.w.everyLane) ≠ 0
      ∧ c.f.lanes &&& ~~~((c.w.s 2).zeroExtend 128 &&& c.w.everyLane) = 0)
    ∧ ∃ c, Ready (atAddress 0x80000000) c [2] []
      ∧ (atAddress 0x80000000).fetchParcel c.wid c.w c.g c.following = .ok 0
      ∧ c.f.lanes &&& ((c.w.s 2).zeroExtend 128 &&& c.w.everyLane) ≠ 0
      ∧ c.f.lanes &&& ~~~((c.w.s 2).zeroExtend 128 &&& c.w.everyLane) ≠ 0
      ∧ c.w.recs[0]? = some none ∧ c.w.frags[1]? = some none ∧ c.w.frags[0]? ≠ some none :=
  ⟨ready_of _ (by decide +kernel), ready_of _ (by decide +kernel), ready_of _ (by decide +kernel)⟩

/-- A wave of two fragments, each with half of the lanes, changed. -/
def fragments (h k : Fragment → Fragment) (w : Wave) : Wave :=
  let f := Fragment.first 32 0x4000
  { w with frags := [some (h { f with lanes := 0xFFFF, mask := 0xFFFF }),
                     some (k { f with lanes := 0xFFFF0000, mask := 0xFFFF0000 })] ++ List.replicate 6 none }

/-- The same, with the second one changed. -/
def twoFragments (h : Fragment → Fragment) (w : Wave) : Wave := fragments id h w

/-- Beyond its entries a wave has no fragments. -/
theorem frags_beyond {w : Wave} {p : Nat → Prop} (h : ∀ i < w.frags.length, p i → w.frag? i = none) (i : Nat) (hi : p i) :
    w.frag? i = none := by
  by_cases hl : i < w.frags.length
  · exact h i hl hi
  · simp [Wave.frag?, List.getElem?_eq_none (Nat.le_of_not_lt hl)]

theorem witness_FragmentEnds_last : ∃ c, plain.ctx? = some c ∧ (∀ r ∈ c.w.recs, r = none) ∧ c.w.inh ≠ some c.fid
    ∧ ∀ i, i ≠ c.fid → c.w.frag? i = none := by
  obtain ⟨c, h, h1, h2, h3⟩ := runs_of (s := plain) (fun c => (∀ r ∈ c.w.recs, r = none) ∧ c.w.inh ≠ some c.fid
    ∧ ∀ i < c.w.frags.length, i ≠ c.fid → c.w.frag? i = none) (by decide +kernel)
  exact ⟨c, h, h1, h2, frags_beyond h3⟩

theorem witness_FragmentEnds_other : ∃ c, (machine [] (twoFragments id) id id).ctx? = some c ∧ (∀ r ∈ c.w.recs, r = none)
    ∧ c.w.inh ≠ some c.fid ∧ 1 ≠ c.fid ∧ c.w.frag? 1 ≠ none := runs_of _ (by decide +kernel)

/-- The bytes of JOIN S2 at 0x4000. -/
def joinCode : List Byte := [0x00, 0xBC, 0x00, 0x40]

/-- A record of all 32 lanes at that JOIN. -/
def joinRecord (arrived : LaneMask) (first : Option Word) : Rec :=
  { addr := 0x4000, expected := 0xFFFFFFFF, arrived := arrived, call := none, parent := none, first := first, bound := 8 }

/-- A wave of two fragments of one record. -/
def joining (arrived : LaneMask) (h : Fragment → Fragment) : State :=
  machine joinCode (fun w =>
    { fragments (fun f => { f with rec? := some 0 }) (fun f => h { f with rec? := some 0 }) w with
      recs := [some (joinRecord arrived (if arrived = 0 then none else some 0))] ++ List.replicate 6 none }) id (fun s =>
    { s with cores := [(0, { Core.reset with cycle := 8 })] })

/-- What the arrival of fragment 0 asks, apart from the other fragment. -/
abbrev Arrives (s : State) (w : Wave) (f : Fragment) (g : Grid) (r : Rec) : Prop :=
  TabOps.find? s.waves 4 = some w ∧ w.frag? 0 = some f ∧ TabOps.find? s.grids w.grid = some g ∧ f.rec? = some 0
    ∧ w.recs[0]? = some (some r) ∧ (∀ j, j ≠ 0 → w.recs.getD j none = none) ∧ r.call = none ∧ f.pc = r.addr
    ∧ s.fetch 4 w g r.addr = .instr (.join 2) 4 ∧ w.pendingAny [2] = false ∧ f.lanes ≠ 0 ∧ f.park = .ready

/-- A list of one record and six empty places has no other record. -/
theorem one_record (r : Rec) (j : Nat) (h : j ≠ 0) : ((some r :: List.replicate 6 none).getD j none : Option Rec) = none := by
  obtain ⟨k, rfl⟩ := Nat.exists_eq_succ_of_ne_zero h
  simp only [List.getD_eq_getElem?_getD, List.getElem?_cons_succ, List.getElem?_replicate]
  split <;> rfl

theorem witness_FragmentEnds_arrives : ∃ w f g, Arrives (joining 0 id) w f g (joinRecord 0 none)
    ∧ ¬ (0 ||| f.lanes) &&& (joinRecord 0 none).expected = (joinRecord 0 none).expected :=
  ⟨_, _, _, ⟨rfl, rfl, rfl, rfl, rfl, one_record _, rfl, rfl, by decide +kernel, by decide +kernel, by decide +kernel, rfl⟩, by decide +kernel⟩

theorem witness_FragmentEnds_fuses : ∃ w f g h,
    Arrives (joining 0xFFFF0000 (fun f => { f with park := .joined, plen := 4 })) w f g (joinRecord 0xFFFF0000 (some 0))
    ∧ w.frag? 1 = some h ∧ h.rec? = some 0 ∧ h.park = .joined ∧ h.pc = f.pc ∧ h.plen = 4
    ∧ (∀ k, k ≠ 0 → k ≠ 1 → w.frag? k = none)
    ∧ (0xFFFF0000 ||| f.lanes) &&& (joinRecord 0xFFFF0000 none).expected = (joinRecord 0xFFFF0000 none).expected :=
  ⟨_, _, _, _, ⟨rfl, rfl, rfl, rfl, rfl, one_record _, rfl, rfl, by decide +kernel, by decide +kernel, by decide +kernel, rfl⟩, rfl, rfl, rfl,
    rfl, rfl, fun k h0 h1 => frags_beyond (p := fun k => k ≠ 0 ∧ k ≠ 1) (by decide +kernel) k ⟨h0, h1⟩, by decide +kernel⟩

theorem witness_FragmentEnds_bound : ∃ w f, TabOps.find? (joining 0xFFFF0000 id).waves 4 = some w ∧ w.frag? 0 = some f
    ∧ f.rec? = some 0 ∧ w.recs[0]? = some (some (joinRecord 0xFFFF0000 (some 0)))
    ∧ (∀ j, j ≠ 0 → w.recs.getD j none = none) ∧ f.park ≠ .joined
    ∧ (joinRecord 0xFFFF0000 (some 0)).bound.toNat
      ≤ ((match w.stopAt with
          | some x => x
          | none => ((joining 0xFFFF0000 id).core (w.die * 48 + w.core)).cycle) - 0).toNat :=
  ⟨_, _, rfl, rfl, rfl, rfl, one_record _, by decide +kernel, by decide +kernel⟩

theorem witness_Barriers_waits : ∃ c, (machine [] (twoFragments id) id id).ctx? = some c ∧ c.wid ∈ c.t.waves
    ∧ c.w.life ≠ .ended ∧ (c.w.frag? 1).any (fun f => f.park != .bar) = true := runs_of _ (by decide +kernel)

theorem witness_Barriers_last : ∃ c, (machine [] (twoFragments (fun f => { f with park := .bar })) id id).ctx? = some c
    ∧ c.wid ∈ c.t.waves ∧ c.w.life ≠ .ended ∧ c.t.waves = [4] ∧ c.fid = 0
    ∧ ∀ k < 8, k ≠ 0 → (c.w.frag? k).all (fun f => f.park == .bar) = true := runs_of _ (by decide +kernel)

/-- A team whose named barrier 15 has an open phase of two arrivals, one of them counted. -/
def openBarrier : State := machine [] (withS 2 2) (fun t => { t with
  nbars := t.nbars.set 15 { phase := 65535, open? := some (2, 1) } }) id

theorem witness_Barriers_nbar : (∃ c, Ready openBarrier c [2] [] ∧ 1 ≤ (c.w.s 2).toNat ∧ (c.w.s 2).toNat ≤ 32
      ∧ (c.t.nbars.getD 15 { phase := 0, open? := none }).open? = some ((c.w.s 2).toNat, 1))
    ∧ ∃ c, Ready (atAddress 32) c [2] [] ∧ 1 ≤ (c.w.s 2).toNat ∧ (c.w.s 2).toNat ≤ 32
      ∧ (c.t.nbars.getD 0 { phase := 0, open? := none }).open? = none :=
  ⟨ready_of _ (by decide +kernel), ready_of _ (by decide +kernel)⟩

theorem witness_Barriers_waitsPhase : (∃ c, openBarrier.ctx? = some c ∧ c.f.park = .ready
      ∧ (c.t.nbars.getD 15 { phase := 0, open? := none }).open? ≠ none ∧ c.w.nbarRec.getD 15 none = none)
    ∧ ∃ c, plain.ctx? = some c ∧ c.f.park = .ready ∧ ¬ (c.t.nbars.getD 15 { phase := 0, open? := none }).open? ≠ none :=
  ⟨runs_of _ (by decide +kernel), runs_of _ (by decide +kernel)⟩

theorem witness_Barriers_carve : ∃ c, Ready plain c [2, 3] [] ∧ ∀ i, i ≠ c.fid → c.w.frag? i = none := by
  obtain ⟨c, h, h1⟩ := ready_of (s := plain) (ss := [2, 3]) (vs := [])
    (fun c => ∀ i < c.w.frags.length, i ≠ c.fid → c.w.frag? i = none) (by decide +kernel)
  exact ⟨c, h, frags_beyond h1⟩

/-- The wave waits at a CARVE of 16 KiB of scratchpad and 16 KiB of L1. -/
def carving : State := machine [] (withFrag (fun f => { f with park := .carve 16 16, plen := 4 })) id id

theorem witness_Barriers_carves : ∃ u g, TabOps.find? carving.teams 3 = some u ∧ TabOps.find? carving.grids u.grid = some g
    ∧ carving.carveArgs u = [(16, 16)] ∧ carving.allParked u atCarve = true ∧ carving.carveOk 3 u g [(16, 16)] = true
    ∧ carving.teamOps 3 = [] ∧ ∀ i, u.spSize ≤ i → MemOps.read u.sp i = 0 :=
  ⟨_, _, rfl, rfl, by decide +kernel, by decide +kernel, by decide +kernel, rfl, fun _ _ => rfl⟩

/-- The wave has a descriptor in S2, and its team an empty buffer 7. -/
def binding (v : Word) : State := machine [] (withS 2 v) (fun t => { t with cbs := t.cbs.set 7 (some
  { base := 0, size := 1, nstg := 1, ncons := 1, acq := 0, com := 0, rel := 0, pending := [], relCount := 0 }) }) id

theorem witness_EventSlots : ∀ v ∈ [0#64, 1#64 <<< 60 ||| 15, 2#64 <<< 60 ||| 0x3FFFF, 3#64 <<< 60 ||| 7, 4#64 <<< 60,
    5#64 <<< 60, 6#64 <<< 60, 6#64 <<< 60 ||| 0xFFFFFFFF], ∃ c, Ready (binding v) c [2] [] ∧ c.w.s 2 = v
      ∧ v.toNat / 2 ^ 60 ≤ 6 ∧ c.t.cbs.getD 7 none ≠ none ∧ (c.f.pc + 2 * (2#15).signExtend 64).toNat % 4 = 0 := by
  intro v hv
  fin_cases hv <;> exact ready_of _ (by decide +kernel)

/-- A second wave, in slot 1, and the handle of that wave in S2. -/
def twoWaves (hv : Wave → Wave) : State := machine [] (withS 2 0x1001) id (fun s => { s with
  waves := s.waves ++ [(5, hv (Wave.start 1 2 3 1 placedPacket 0 0 0 1 1))] })

theorem witness_EventSlots_mail : ∃ c, Ready (twoWaves id) c [2] [] ∧ c.wid ≠ 5
    ∧ (twoWaves id).byHandle c.w.issueDie ((c.w.s 2).extractLsb' 0 24) = some 5
    ∧ TabOps.find? (twoWaves id).waves 5 ≠ none := ready_of _ (by decide +kernel)

theorem witness_EventSlots_masks : (∃ c, Ready plain c [1, 2] [] ∧ True) ∧ (∃ c, Ready plain c [1] [] ∧ True)
    ∧ ∃ c, Ready plain c [2] [] ∧ True := ⟨ready_of _ (by decide +kernel), ready_of _ (by decide +kernel), ready_of _ (by decide +kernel)⟩

/-- A wave whose slot 15 has a binding, with S2 the mask of that slot. -/
def eventWave (pending : BitVec 16) (b : Binding) (w : Wave) : Wave :=
  { withS 2 0x8000 w with evmask := 0x8000, evpend := pending, binds := w.binds.set 15 b, counts := w.counts.set 15 1 }

theorem witness_Waiting_takes : ∀ kind ∈ [1#4, 2, 4, 6], ∃ c,
    Ready (machine [] (eventWave 0x8000 { Binding.none with kind := kind }) id id) c [1, 2] []
    ∧ ((c.w.s 2).extractLsb' 0 16 &&& c.w.evmask) = 0x8000 ∧ c.w.evpend = 0x8000
    ∧ (c.w.binds.getD 15 Binding.none).kind ≠ 0 ∧ c.w.tileBad = [] := by
  intro kind hk
  fin_cases hk <;> exact ready_of _ (by decide +kernel)

theorem witness_Waiting_waits : ∃ c, Ready (machine [] (eventWave 0 { Binding.none with kind := 1 }) id id) c [1, 2] []
    ∧ (c.w.s 2).extractLsb' 0 16 &&& c.w.evmask = 0x8000 ∧ c.w.evpend = 0 ∧ (c.w.binds.getD 15 Binding.none).kind ≠ 0 :=
  ready_of _ (by decide +kernel)

theorem witness_Waiting_wakes : ∀ kind ∈ [1#4, 2, 4], ∃ w f, TabOps.find? (machine [] (fun w =>
      withFrag (fun f => { f with park := .waitany 1 0x8000 }) (eventWave 0x8000 { Binding.none with kind := kind } w))
        id id).waves 4 = some w
    ∧ w.life = .running ∧ w.stopAt = none ∧ w.frag? 0 = some f ∧ f.park = .waitany 1 0x8000 ∧ (∀ i, i ≠ 0 → w.frag? i = none)
    ∧ (0x8000#16).getLsbD 15 = true ∧ w.evmask.getLsbD 15 = true ∧ w.maskNew.getLsbD 15 = false ∧ w.evpend = BitVec.ofNat 16 (2 ^ 15) ∧ w.tileBad = []
    ∧ w.counts.getD 15 0 = 1 := by
  intro kind hk
  fin_cases hk <;> exact ⟨_, _, rfl, rfl, rfl, rfl, rfl, frags_beyond (by decide +kernel), by decide, rfl, rfl, by decide +kernel, rfl, by decide +kernel⟩

theorem witness_Waiting_deadline : ∃ w b, TabOps.find? (machine [] (eventWave 0
      { Binding.none with kind := 6, armed := true, deadline := some 0 }) id id).waves 4 = some w
    ∧ w.binds[15]? = some b ∧ b.deadline = some 0 ∧ b.armed = true ∧ w.life = .running ∧ b.kind = 6
    ∧ ((match w.stopAt with
        | some y => y
        | none => ((machine [] id id id).core (w.die * 48 + w.core)).cycle) - 0).toNat < 2 ^ 63 :=
  ⟨_, _, rfl, rfl, rfl, rfl, rfl, rfl, by decide +kernel⟩

/-- A legal packet: one team of one wave of 32 lanes with 8 registers of each kind. -/
def thePacket : List Word :=
  [0x4000, 0x8000, 0x100000001, 0x104000000, 0x0810000000000080, 0, 0, 0, 0, 0, 0, 0, 0, 0, 0, 0]

/-- The machine with that packet at the address in S2. -/
def launching : State := machine [] (withS 2 0x200000) id (fun s => { s with
  dram := MemOps.writeBytes s.dram 0x200000 (thePacket.flatMap (fun w => leBytes w.toNat 8)) })

theorem witness_Launches_launch : ∃ c, Ready launching c [2] [] ∧ c.w.idx = 0 ∧ (c.w.s 2).toNat % 64 = 0 ∧ c.g.depth ≠ 10
    ∧ (let s' := launching.release (c.route launching) 4 (.child launching.opNext)
       let x := s'.peek (c.route launching) (c.w.s 2) 128
       x.1.causes = 0 ∧ Served s' c false x.1.parts ∧ wordsOf x.2 16 = thePacket)
    ∧ packetLegal thePacket false = true := ready_of _ (by decide +kernel)

/-- A running grid of that packet, not placed yet. -/
def placing : State := { plain with grids := [(1, { placedGrid 0 [] with packet := Packet.ofWords thePacket, nextNb := 0 })] }

theorem witness_Launches_place : ∃ g, TabOps.find? placing.grids 1 = some g ∧ g.life = .running ∧ g.drain = false
    ∧ g.nextNb < g.packet.nbs ∧ g.fixed = none ∧ g.early = none ∧ (placing.vd g.vd).dies.getLsbD 0 = true
    ∧ placing.diePlaces 0 = true
    ∧ placing.findOrigin g.packet (g.packet.nbTeams g.nextNb) 0 g.packet.carveBytes = some 0 :=
  ⟨_, rfl, rfl, rfl, by decide +kernel, rfl, rfl, by decide +kernel, by decide +kernel, by decide +kernel⟩

/-- The team has ended, and its neighbourhood with it. -/
def ended : State := machine [] (fun w => { w with life := .ended }) (fun t => { t with life := .ended }) (fun s => { s with
  grids := TabOps.mapVals (fun _ g => { g with packet := { g.packet with cpl := 0x200000 } }) s.grids })

theorem witness_Launches_teamRetires : ∃ u, TabOps.find? ended.teams 3 = some u ∧ u.life = .ended ∧ ended.teamOps 3 = []
    ∧ u.tileBusy = false := ⟨_, rfl, rfl, rfl, by decide +kernel⟩

/-- The team has retired. -/
def finished : State := { ended with
  teams := TabOps.mapVals (fun _ t => { t with life := .retired, waves := [] }) ended.teams
  nbs := TabOps.mapVals (fun _ n => { n with life := .done }) ended.nbs
  waves := [] }

theorem witness_Launches_gridRetires : ∃ g, TabOps.find? finished.grids 1 = some g ∧ g.life = .running
    ∧ finished.gridOver 1 g = true ∧ g.queue = none ∧ g.packet.cpl ≠ 0 ∧ finished.retrace.log = []
    ∧ finished.translate (ioDie g.vd) g.vd g.packet.cpl .store = .ok (gib, 0x200000)
    ∧ (finished.releaseGrid 1 g).translate (ioDie g.vd) g.vd g.packet.cpl .store = .ok (gib, 0x200000) :=
  ⟨_, rfl, rfl, by decide +kernel, rfl, by decide +kernel, rfl, by decide +kernel, by decide +kernel⟩

/-- The same, where the record's page is not mapped. -/
def unmapped : State := { finished with
  grids := TabOps.mapVals (fun _ g => { g with packet := { g.packet with cpl := 0x40000000 } }) finished.grids }

theorem witness_Launches_gridAsks : ∃ g, TabOps.find? unmapped.grids 1 = some g ∧ g.life = .running
    ∧ unmapped.gridOver 1 g = true ∧ g.packet.cpl ≠ 0 ∧ g.asked = 0
    ∧ unmapped.translate (ioDie g.vd) g.vd g.packet.cpl .store = .error .xlate :=
  ⟨_, rfl, rfl, by decide +kernel, by decide +kernel, rfl, by decide +kernel⟩

/-! ### Witnesses: engines, banks, collectives and the matrix engine -/

/-- Memory whose first 8 MiB are mapped in pages of 2 MiB that bank arithmetic may use, with a table of one record at
0x300000, a group of two ranks at 0x310000, and the words of a descriptor at 0x200000. -/
def engineMemory (ws : List Word) : Mem :=
  let bytes := fun (xs : List Word) => xs.flatMap (fun w => leBytes w.toNat 8)
  let m := MemOps.writeBytes [(0, 0x01), (1, 0x10), (4096, 0x01), (4097, 0x20)] 8192
    (bytes [0x63D, 0x20063D, 0x40063D, 0x60063D])
  MemOps.writeBytes (MemOps.writeBytes (MemOps.writeBytes m 0x200000 (bytes ws)) 0x300000 (bytes theRecord)) 0x310000
    (bytes [0x310010, 0x8000000000000002, 1, 2])

/-- The machine with that memory, and the descriptor's address in S2. -/
def engine (ws : List Word) : State := machine [] (withS 2 0x200000) id (fun s => { s with
  dram := engineMemory ws
  vds := TabOps.put s.vds 0 { s.vd 0 with grouptab := 0x310000 }
  grids := TabOps.mapVals (fun _ g => { g with packet := { g.packet with
    recN := 1
    recA := 0x300000 } }) s.grids })

/-- What every engine command asks: the descriptor's words can be read. -/
abbrev Described (s : State) (c : Ctx) (ws : List Word) : Prop :=
  (c.w.s 2).toNat % 32 = 0 ∧ (s.locate (c.route s).at' (c.route s).vd .load 0 (c.w.s 2) 32).causes = 0
    ∧ Served s c false (s.locate (c.route s).at' (c.route s).vd .load 0 (c.w.s 2) 32).parts
    ∧ wordsOf (seenBytes s c false (s.locate (c.route s).at' (c.route s).vd .load 0 (c.w.s 2) 32).parts) 4 = ws

/-- The state of the checks after the descriptor is read. -/
def readOf (s : State) (c : Ctx) : State :=
  s.keepParts (c.route s) (s.locate (c.route s).at' (c.route s).vd .load 0 (c.w.s 2) 32).parts

theorem witness_EngineCommands_copies : ∀ x ∈ [(CopyOp.copy, [0x400000#64, 0x3FFC, 0x0001000000000004, 0]),
      (.reduce, [0x400000, 0x3FF8, 0x0072000000000008, 0]), (.fill, [0x3FF8, 0x3F800000, 0x0004000000000008, 0])],
    ∃ c, Ready (engine x.2) c [2] [] ∧ c.w.budget [1, 2] [] = true ∧ Described (engine x.2) c x.2
      ∧ c.w.idx = c.g.packet.producer ∧ (engine x.2).copyQueue c.w.key < 1024 ∧ (copyCmd x.1 x.2 0).isSome = true
      ∧ lowestPage ((engine x.2).locate (c.route (engine x.2)).at' (c.route (engine x.2)).vd .load 0 (c.w.s 2) 32).parts = 0
      ∧ ∀ cmd ∈ (copyCmd x.1 x.2 0).toList,
          (cmd.dspace = 0 ∨ (readOf (engine x.2) c).spBytes c.w.team c.t c.g (cmd.dspace == 2) cmd.dst cmd.len
            = .ok ((List.range cmd.len).map (fun i => (3, cmd.dst.toNat + i))))
          ∧ (x.1 = .fill ∨ (readOf (engine x.2) c).spBytes c.w.team c.t c.g (cmd.sspace == 2) cmd.src cmd.len
            = .ok ((List.range cmd.len).map (fun i => (3, cmd.src.toNat + i)))) := by
  intro x hx
  fin_cases hx <;> exact ready_of _ (by decide +kernel)

/-- The descriptor of a gather of the last element that its record holds. -/
def gatherWords : List Word := [0x400000, 0xFFC, 4, 0]

theorem witness_EngineCommands_gather : ∃ c, Ready (engine gatherWords) c [2] [] ∧ c.w.budget [1, 2] [] = true
    ∧ Described (engine gatherWords) c gatherWords ∧ c.w.idx = c.g.packet.producer ∧ (engine gatherWords).copyQueue c.w.key < 1024
    ∧ (copyCmd .gather gatherWords 0).any (fun cmd => cmd.dspace == 0 && decide (cmd.src.toNat + cmd.len ≤ BufRec.extent theRecord))
        = true
    ∧ (let r := c.route (engine gatherWords)
       let x := (engine gatherWords).locate r.at' r.vd .load 0 (c.w.s 2) 32
       let s2 := (readOf (engine gatherWords) c).loadParts r 0 0 x.parts
       Waited s2 c r.past false (s2.recParts r c.g 0) ∧ s2.record r c.g 0 = .ok theRecord)
    ∧ BufRec.ilv theRecord = 0 := ready_of _ (by decide +kernel)

theorem witness_EngineCommands_banks : ∀ x ∈ [(BankOp.zero, [0x400000#64, 0, 1, 0]),
      (.copy, [0x600000, 0x400000, 0x800, 0]), (.axpy, [0x400000, 0x400000, 0x3F80000010000001, 0]),
      (.dot, [0x400000, 0x400400, 1, 0x400400]), (.scal, [0x400000, 0, 0x3F80000000000001, 0])],
    ∃ c, Ready (engine x.2) c [2] [] ∧ c.w.budget [1, 2] [] = true ∧ Described (engine x.2) c x.2 ∧ bankOk x.1 x.2 = true
      ∧ (match bankTranslate (readOf (engine x.2) c) (c.route (engine x.2)) (bankOperands x.1 x.2) with
         | .ok as => as.all (fun y => y.1.pa / 2 ^ 36 == (bankCmd x.1 x.2 0 as).stack)
         | .error _ => false) = true
      ∧ (engine x.2).intake = [] := by
  intro x hx
  fin_cases hx <;> exact ready_of _ (by decide +kernel)

theorem witness_EngineCommands_collectives : ∀ x ∈ [(0, [0x400000#64, 0x400100, 0x0070000000000004, 0]),
      (1, [0x400000, 0x400100, 4, 0]), (2, [0x400000, 0x400100, 4, 0]), (3, [0x400000, 0x400100, 0x0000010000000004, 0])],
    ∃ c, Ready (engine x.2) c [2] [] ∧ c.w.budget [1, 2] [] = true ∧ Described (engine x.2) c x.2
      ∧ c.w.idx = c.g.packet.producer
      ∧ (let y := (readOf (engine x.2) c).groupRead (c.route (engine x.2)) 0
         y.causes = 0 ∧ Served (readOf (engine x.2) c) c false y.parts ∧ y.ranks = [1, 2]
         ∧ rankOf y.ranks (· == endpointOf (engine x.2).moduleNo c.w.issueDie c.w.handle) = some 0)
      ∧ (engine x.2).collQueue c.w.key < 64 ∧ collOk x.1 x.2 2 0 = true := by
  intro x hx
  fin_cases hx <;> exact ready_of _ (by decide +kernel)

/-- A wave whose copy batches have closed up to a number and completed up to another. -/
def batches (cl dn : BitVec 16) (opened : List Nat) (w : Wave) : Wave :=
  { w with batches := w.batches.set 0 { cl := cl, dn := dn, opened := opened, closed := [] } }

theorem witness_BatchControl_close : (∃ c, Ready (machine [] (batches 32766 0 [9]) id id) c [63] []
      ∧ (c.w.batches.getD 0 { cl := 0, dn := 0, opened := [], closed := [] }).cl = 32766
      ∧ ((32766#16) + 1 - 0).toNat < 32768 ∧ 0 < c.w.batches.length)
    ∧ ∃ c, Ready (machine [] (batches 65535 65535 []) id id) c [63] [] ∧ ((65535#16) + 1 - 65535).toNat < 32768 :=
  ⟨ready_of _ (by decide +kernel), ready_of _ (by decide +kernel)⟩

theorem witness_BatchControl_wait : (∃ c, Ready (machine [] (fun w => withS 2 5 (batches 5 5 [] w)) id id) c [2] []
      ∧ c.f.park = .ready ∧ (c.w.s 2).extractLsb' 0 16 = 5
      ∧ ¬ (1 ≤ (5#16 - 5).toNat ∧ (5#16 - 5).toNat ≤ 32767) ∧ (5#16 - 5).toNat < 32768)
    ∧ ∃ c, Ready (machine [] (fun w => withS 2 5 (batches 5 4 [] w)) id id) c [2] []
      ∧ ¬ (1 ≤ (5#16 - 5).toNat ∧ (5#16 - 5).toNat ≤ 32767) ∧ 32768 ≤ (4#16 - 5).toNat :=
  ⟨ready_of _ (by decide +kernel), ready_of _ (by decide +kernel)⟩

/-- A fragment parked at a BWAIT of a batch that is complete. -/
theorem witness_BatchControl_parked : ∃ c, (machine [] (fun w => withFrag (fun f => { f with park := .bwait 0 5, plen := 4 })
      (batches 5 5 [] w)) id id).ctx? = some c ∧ c.f.park = .bwait 0 5
    ∧ (let b := c.w.batches.getD 0 { cl := 0, dn := 0, opened := [], closed := [] }
       (b.dn - 5).toNat < 32768 ∧ ¬ (1 ≤ (5 - b.cl).toNat ∧ (5 - b.cl).toNat ≤ 32767)) := runs_of _ (by decide +kernel)

theorem witness_BatchControl_bank : ∃ c, Ready plain c [2] [] ∧ c.f.park = .ready
    ∧ c.w.batches.getD 2 { cl := 0, dn := 0, opened := [], closed := [] } = { cl := 0, dn := 0, opened := [], closed := [] }
    ∧ (c.w.s 2).extractLsb' 0 16 = 0 ∧ (c.route plain).fused = [] := ready_of _ (by decide +kernel)

/-- A wave that has not read the status word in S2. -/
theorem witness_BatchControl_read : ∃ c, (machine [] (fun w => { w with doneRegs := [2] }) id id).ctx? = some c
    ∧ c.w.budget [1, 2, 3] [] = true ∧ c.w.pendingAny [1, 2, 3] = false ∧ 2 ∈ c.w.doneRegs := runs_of _ (by decide +kernel)

/-- A bank command on one row. -/
def zeroRow : BankCmd :=
  { op := 0, stack := 0, dst := { pa := 0x400000, owner := 0, grade := 0 }, xs := [], alpha := 0, fmt := 0, rows := 1,
    t := 0, lax := false, split := false, toEnter := [], toRead := [], toWrite := [], bad := none, code := 0, snap := [] }

/-- A copy of one row, and the row's bank. -/
def copyRow : BankCmd := { zeroRow with op := 1, xs := [{ pa := 0x600000, owner := 0, grade := 0 }] }

/-- An operation of the wave with S63 as its completion register. -/
def opOf (body : OpBody) (cls : BitVec 2) (life : OpLife) : Op :=
  { body := body, wave := 4, grid := 1, team := 3, die := 0, core := 0, vd := 0, sd := some 63, cls := cls, eg := 1,
    life := life, queue := none, fault := 0, moved := 16 }

/-- The machine with one operation, numbered 9, whose completion register is pending, and the rest changed. -/
def operating (o : Op) (hs : State → State) : State := machine [] (fun w => { w with pendRegs := [(63, 9)] }) id (fun s => hs { s with
  ops := [(9, o)]
  dram := engineMemory [] })

theorem witness_BatchControl_fence : (∃ c, (operating (opOf (.bank zeroRow) 2 .queued) id).ctx? = some c ∧ c.wid = 4)
    ∧ (∃ c, plain.ctx? = some c ∧ plain.ops = [])
    ∧ ∃ w f u g, TabOps.find? (machine [] (withFrag (fun f => { f with park := .bfence, plen := 4 })) id id).waves 4 = some w
      ∧ w.frag? 0 = some f ∧ f.park = .bfence
      ∧ TabOps.find? (machine [] (withFrag (fun f => { f with park := .bfence, plen := 4 })) id id).teams w.team = some u
      ∧ TabOps.find? (machine [] (withFrag (fun f => { f with park := .bfence, plen := 4 })) id id).grids w.grid = some g :=
  ⟨runs_of _ (by decide +kernel), runs_of _ (by decide +kernel), _, _, _, _, rfl, rfl, rfl, rfl, rfl⟩

/-- A buffer of 16 stages of a line, four consumers, with stages acquired, committed and released. -/
def buffer (acq com rel : BitVec 16) (pending : List CbCommit) : Cb :=
  { base := 0x3800, size := 1, nstg := 16, ncons := 4, acq := acq, com := com, rel := rel, pending := pending, relCount := 3 }

/-- The machine whose team has a buffer 7, with S2. -/
def buffered (b : Cb) (v : Word) : State := machine [] (fun w => withS 2 v (batches 5 4 [] w)) (fun t => { t with cbs := t.cbs.set 7 (some b) }) id

theorem witness_CircularBuffers_init : ∃ c, Ready (buffered (buffer 3 3 3 []) 0x006F000001003800) c [2] [] ∧ 7 < c.t.cbs.length
    ∧ cbOk (c.w.s 2) c.t.spSize = true ∧ c.t.cbs.getD 7 none = some (buffer 3 3 3 []) ∧ (buffer 3 3 3 []).inUse = false :=
  ready_of _ (by decide +kernel)

theorem witness_CircularBuffers_acquire : ∃ c, Ready (buffered (buffer 14 0 65535 [.acquired]) 0) c [1] []
    ∧ c.t.cbs.getD 7 none = some (buffer 14 0 65535 [.acquired]) ∧ (14#16 - 65535).toNat < 16
    ∧ [CbCommit.acquired].head? ≠ some .full := ready_of _ (by decide +kernel)

theorem witness_CircularBuffers_commit : (∃ c, Ready (buffered (buffer 1 0 0 [.acquired]) 0) c [2] []
      ∧ (c.w.s 2).getLsbD 16 = false ∧ CbCommit.full ∉ ([] : List CbCommit))
    ∧ ∃ c, Ready (buffered (buffer 1 0 0 [.acquired]) 0x10005) c [2] [] ∧ (c.w.s 2).getLsbD 16 = true
      ∧ (c.w.batches.getD 0 { cl := 0, dn := 0, opened := [], closed := [] }) = { cl := 5, dn := 4, opened := [], closed := [] }
      ∧ ¬ (1 ≤ (5#16 - 5).toNat ∧ (5#16 - 5).toNat ≤ 32767) ∧ 32768 ≤ (4#16 - 5).toNat :=
  ⟨ready_of _ (by decide +kernel), ready_of _ (by decide +kernel)⟩

theorem witness_CircularBuffers_wait : (∃ c, Ready (buffered (buffer 1 1 0 []) 0) c [2] [] ∧ (0#16 - 0).toNat < 16
      ∧ (0#16 - 0).toNat < (1#16 - 0).toNat)
    ∧ ∃ c, Ready (buffered (buffer 1 0 0 [.acquired]) 0x1000F) c [2] [] ∧ (c.w.s 2).getLsbD 16 = true
      ∧ (15#16 - 0).toNat < 16 ∧ (0#16 - 0).toNat ≤ (15#16 - 0).toNat :=
  ⟨ready_of _ (by decide +kernel), ready_of _ (by decide +kernel)⟩

theorem witness_CircularBuffers_release : ∃ c, Ready (buffered (buffer 1 1 0 []) 0) c [2] []
    ∧ (c.w.s 2).extractLsb' 0 16 = (buffer 1 1 0 []).rel ∧ (buffer 1 1 0 []).com ≠ (buffer 1 1 0 []).rel :=
  ready_of _ (by decide +kernel)

/-- Four waves of a team, with a format block of BF16 and K = 32 in S2:S3 and A at 0 of the scratchpad. -/
def matrixWave (i : Nat) : Wave :=
  { Wave.start 1 2 3 i placedPacket 0 0 0 i 1 with
    sregs := ((Wave.start 1 2 3 i placedPacket 0 0 0 i 1).sregs.set 2 ⟨0x1100400000000000, 0⟩) }

/-- The same team on core 0, and another of the same neighbourhood, at its map's entry 1, on core 1. -/
def matrix : State :=
  { machine [] id id (fun s => { s with
      grids := TabOps.mapVals (fun _ g => { g with packet := { g.packet with
        map := [0, 1]
        paired := true } }) s.grids
      nbs := TabOps.mapVals (fun _ n => { n with teams := [3, 8] }) s.nbs }) with
    waves := (List.range 4).map (fun i => (4 + i, matrixWave i))
    teams := [(3, { theTeam with waves := [4, 5, 6, 7] }), (8, { theTeam with core := 1, mapSlot := 1, waves := [] })] }

/-- What MMA and MMA.p ask of their operands. -/
abbrev MatrixReady (s : State) (c : Ctx) (rows : Nat) : Prop :=
  let b := Block.ofWords (c.w.s 2) (c.w.s 3)
  c.w.budget [] (b.regs c.w.width) = true ∧ 1 < c.t.tiles.length ∧ 4 ≤ c.t.waves.length
    ∧ b.ok ((s.die c.w.die).service == .twilight) = true ∧ (c.w.s 4).toNat % 128 = 0 ∧ s.captureFull c.w.key = false
    ∧ s.slaved c.w.key = false ∧ (∀ w ∈ s.quarters c.t, ∀ r ∈ b.regs w.width, (w.v r).poison = 0)
    ∧ (∀ q ∈ b.ranges (c.w.s 4).toNat rows, rangesFault c.t.spSize q = none)
    ∧ ∀ q ∈ b.aWords c.w.team (c.w.s 4).toNat rows, s.spPoison q = false

theorem witness_MatrixInstructions : ∃ c, Ready matrix c [2, 3, 4] [] ∧ MatrixReady matrix c 64 := ready_of _ (by decide +kernel)

/-- A scratchpad large enough for the 128 rows of a pair. -/
def pairMatrix : State := { matrix with teams := TabOps.mapVals (fun _ t => { t with spSize := 32768 }) matrix.teams }

theorem witness_MatrixInstructions_pair : ∃ c, Ready pairMatrix c [2, 3, 4] [] ∧ MatrixReady pairMatrix c 128
    ∧ (pairMatrix.followerOf c.t c.g).map Prod.fst = some 8 ∧ 8 ≠ c.w.team ∧ c.g.packet.paired = true ∧ c.w.core % 2 = 0
    ∧ pairMatrix.captureFull (pairMatrix.teamKey 8) = false := ready_of _ (by decide +kernel)

theorem witness_MatrixInstructions_tiles : (∃ c, VecReady (atAddress 255) c (.bare true [130] (.v32 1)) ∧ Quiet c.w
      ∧ c.f.park = .ready ∧ 1 < c.t.tiles.length ∧ ((c.w.closed.source [] 130).lane 0).toNat = 8192 / c.w.width - 1
      ∧ (atAddress 255).tileQueue c.w.team 1 = [] ∧ (VecForm.bare true [130] (.v32 1)).latches = [])
    ∧ (∃ c, VecReady (atAddress 255) c (.bare false [130, 1] .none) ∧ Quiet c.w
      ∧ (VecForm.bare false [130, 1] .none).latches = [])
    ∧ ∃ c, Ready plain c [] [] ∧ 1 < c.t.tiles.length :=
  ⟨vec_of _ _ (by decide +kernel), vec_of _ _ (by decide +kernel), ready_of _ (by decide +kernel)⟩

/-- A copy of two elements from 0x600000 to 0x400FFC. -/
def copyPair : CopyCmd :=
  { op := 0, dst := 0x400FFC, src := 0x600000, rop := 0, dspace := 0, sspace := 0, len := 8, record := [], descG := 0,
    snap := [], spSnap := [] }

/-- A reduction of one element between two ranks. -/
def reduction : CollCmd :=
  { op := 0, dst := 0x400000, src := 0x400100, vd := 0, group := 0, rop := 0, root := 0, len := 4, ranks := [1, 2],
    rank := 1, seq := 0, tmo := 1, since := 0, snap := [] }

theorem witness_EngineSteps_start : ∀ x ∈ [(OpBody.copy copyPair, false), (.coll reduction, true)],
    ∃ o, TabOps.find? (operating (opOf x.1 0 .queued) id).ops 9 = some o ∧ o.life = .queued ∧ o.body.engine = some x.2 ∧ o.wave ≠ 0
      ∧ ((operating (opOf x.1 0 .queued) id).ops.map Prod.fst).Nodup
      ∧ ((operating (opOf x.1 0 .queued) id).ops.filter (fun p => p.2.die == o.die && p.2.body.engine == some x.2)).find?
          (fun p => p.2.life == .queued) = some (9, o) := by
  intro x hx
  fin_cases hx <;> exact ⟨_, rfl, rfl, rfl, by decide, by decide +kernel, by decide +kernel⟩

/-- The operation is of no queue and no replay, and no earlier one waits for its register. -/
abbrev Alone (s : State) (o : Op) : Prop :=
  TabOps.find? s.ops 9 = some o ∧ o.queue = none ∧ TabOps.find? s.retrace.status 9 = none ∧ s.registerTurn 9 o = true

/-- The copy as it runs. -/
def copying : State := operating (opOf (.copy copyPair) 0 .running) id

theorem witness_EngineSteps_copy : ∃ o, Alone copying o ∧ o.body = .copy copyPair ∧ o.life = .running ∧ o.fault = 0 ∧ o.allMoved = true
    ∧ (∀ e ∈ copyPair.elems copying o, e.code = 0)
    ∧ gradeCheck (copyPair.grade copying o (copyPair.elems copying o)) ((copyPair.elems copying o).flatMap (fun e => e.dst.parts))
      ≠ .strict :=
  ⟨_, ⟨rfl, rfl, rfl, by decide +kernel⟩, rfl, rfl, rfl, by decide +kernel, by decide +kernel, by decide +kernel⟩

theorem witness_EngineSteps_fault : ∃ o, Alone (operating { opOf (.copy copyPair) 0 .running with fault := 1 } id) o
    ∧ o.body = .copy copyPair ∧ o.life = .running ∧ o.fault ≠ 0 ∧ o.fault < 16 :=
  ⟨_, ⟨rfl, rfl, rfl, by decide +kernel⟩, rfl, rfl, by decide, by decide⟩

/-- What Completes asks of the wave: it runs, S63 is a register and pending for this operation alone. -/
theorem witness_EngineSteps_register : ∃ w, TabOps.find? copying.waves 4 = some w ∧ w.life = .running ∧ 63 < w.sregs.length
    ∧ ∀ p ∈ w.pendRegs, p.1 = 63 → p.2 = 9 := ⟨_, rfl, rfl, by decide +kernel, by decide +kernel⟩

theorem witness_EngineSteps_lines : copying.Sound ∧ ∀ line, copying.lineDown line = false :=
  ⟨by decide +kernel, no_line_down (by decide +kernel) (by decide +kernel)⟩

theorem witness_EngineSteps_intake : ∃ o, TabOps.find? (operating (opOf (.bank copyRow) 2 .queued) (fun s => { s with intake := [(0, [9, 10])] })).ops 9
      = some o ∧ o.body = .bank copyRow
    ∧ TabOps.get [] (operating (opOf (.bank copyRow) 2 .queued) (fun s => { s with intake := [(0, [9, 10])] })).intake 0 = 9 :: [10]
    ∧ copyRow.regionOk = true ∧ copyRow.banks.Nodup
    ∧ copyRow.dst.grade.toNat ≤ copyRow.t.toNat := ⟨_, rfl, rfl, rfl, by decide +kernel, by decide +kernel, by decide⟩

/-- A command with a part that could not enter a full queue, and one that can. -/
def halfIn : State := operating (opOf (.bank { copyRow with
    split := true
    toEnter := [0, 1] }) 2 .running) (fun s => { s with
  intake := [(0, [9])]
  bankQ := [(bankKey 0 0, List.range 16)] })

theorem witness_EngineSteps_enters : ∃ o cmd, TabOps.find? halfIn.ops 9 = some o ∧ o.body = .bank cmd ∧ cmd.split = true
    ∧ cmd.toEnter.Nodup ∧ TabOps.get [] halfIn.intake cmd.stack = [9]
    ∧ cmd.toEnter.filter (fun b => decide (16 ≤ (TabOps.get [] halfIn.bankQ (bankKey cmd.stack b)).length)) = [0] :=
  ⟨_, _, rfl, rfl, rfl, by decide, rfl, by decide +kernel⟩

/-- The command split, with the banks that it still reads and writes. -/
def splitRow (r w : List Nat) : BankCmd := { copyRow with split := true, toRead := r, toWrite := w }

/-- The command at the head of bank 0's queue. -/
def banking (r w : List Nat) : State := operating (opOf (.bank (splitRow r w)) 2 .running) (fun s => { s with bankQ := [(0, [9])] })

theorem witness_EngineSteps_parts : (∃ o, TabOps.find? (banking [0] [0]).ops 9 = some o ∧ o.body = .bank (splitRow [0] [0])
      ∧ (TabOps.get [] (banking [0] [0]).bankQ (bankKey 0 0)).head? = some 9 ∧ 0 ∈ (splitRow [0] [0]).toRead)
    ∧ (∃ o, TabOps.find? (banking [] [0]).ops 9 = some o ∧ o.body = .bank (splitRow [] [0])
      ∧ (TabOps.get [] (banking [] [0]).bankQ (bankKey 0 0)).head? = some 9 ∧ 0 ∈ (splitRow [] [0]).toWrite)
    ∧ ∃ o, Alone (banking [] []) o ∧ o.body = .bank (splitRow [] []) ∧ (splitRow [] []).split = true
      ∧ (splitRow [] []).code = 0 ∧ (splitRow [] []).toEnter = [] :=
  ⟨⟨_, rfl, rfl, rfl, by decide⟩, ⟨_, rfl, rfl, rfl, by decide⟩, _, ⟨rfl, rfl, rfl, by decide +kernel⟩, rfl, rfl, rfl, rfl⟩

/-- What a rank brings: one element. -/
def partOf (v : Nat) : CollPart :=
  { op := 0, len := 4, rop := 0, root := 0, die := some 0,
    blocks := some [{ vals := [v], grade := 3, code := 0, homes := [0] }] }

/-- The part of rank 1, with the other rank's part there or not. -/
def reducing (parts : Tab CollPart) : State := operating (opOf (.coll reduction) 3 .running) (fun s => { s with
  rounds := [{ vd := 0, group := 0, seq := 0, parts := parts, lost := false }]
  cores := [(0, { Core.reset with cycle := 0x100000 })] })

theorem witness_EngineSteps_collective : ∃ o, Alone (reducing [(0, partOf 7), (1, partOf 8)]) o ∧ o.body = .coll reduction
    ∧ o.life = .running ∧ o.fault = 0 ∧ o.allMoved = true
    ∧ (let r := (reducing [(0, partOf 7), (1, partOf 8)]).round 0 0 0
       r.lost = false ∧ (∀ p < 2, (TabOps.find? r.parts p).any (fun x => x.blocks.isSome) = true)
       ∧ (∀ x ∈ r.parts, x.2.agrees (partOf 7) = true) ∧ (∀ b ∈ reduction.inputs r, b.2.code = 0)
       ∧ (∀ a ∈ reduction.dests (reducing [(0, partOf 7), (1, partOf 8)]) o.route, a.causes = 0)
       ∧ gradeCheck (reduction.grade r) (partsOf (reduction.dests (reducing [(0, partOf 7), (1, partOf 8)]) o.route)) ≠ .strict) :=
  ⟨_, ⟨rfl, rfl, rfl, by decide +kernel⟩, rfl, rfl, rfl, by decide +kernel, by decide +kernel⟩

theorem witness_EngineSteps_timeout : ∃ o, Alone (reducing [(1, partOf 8)]) o ∧ o.body = .coll reduction ∧ o.life = .running
    ∧ o.fault = 0 ∧ reduction.tmo ≠ 0
    ∧ reduction.tmo * 2 ^ 20 ≤ ((reducing [(1, partOf 8)]).dieCycle o.die - reduction.since).toNat
    ∧ (reducing [(1, partOf 8)]).collWaits reduction = true ∧ (reducing [(1, partOf 8)]).arriving 9 reduction = false :=
  ⟨_, ⟨rfl, rfl, rfl, by decide +kernel⟩, rfl, rfl, rfl, by decide, by decide +kernel, by decide +kernel, by decide +kernel⟩

/-- A captured operation on half 1 with K = 32 and operands of zeros. -/
def product (executed : Bool) : MatCmd :=
  { paired := false, half := 1, afmt := 1, bfmt := 1, k := 32, width := 32, a := [], b := [], ac := none, bc := none,
    aq := none, bq := none, tag := 0, follower := none, executed := executed }

/-- The machine with an operation at the head of half 1. -/
def tiling (body : OpBody) : State :=
  { operating { opOf body 1 .queued with sd := none } id with
    teams := [(3, { theTeam with tiles := [Tile.start 0, { Tile.start 0 with queue := [.op 9] }] })] }

theorem witness_MatrixSteps_execute : ∃ o u, TabOps.find? (tiling (.mma (product false))).ops 9 = some o
    ∧ (tiling (.mma (product false))).keepsTiles o.team = true ∧ o.body = .mma (product false)
    ∧ TabOps.find? (tiling (.mma (product false))).teams o.team = some u ∧ 1 < u.tiles.length
    ∧ ((tiling (.mma (product false))).tileQueue o.team 1).head? = some (.op 9)
    ∧ (tiling (.mma (product false))).arrayTurn 9 o (product false) = true :=
  ⟨_, _, rfl, rfl, rfl, rfl, by decide, rfl, by decide +kernel⟩

theorem witness_MatrixSteps_retire : ∃ o u g, TabOps.find? (tiling (.mma (product true))).ops 9 = some o
    ∧ (tiling (.mma (product true))).keepsTiles o.team = true ∧ o.body = .mma (product true) ∧ (product true).executed = true
    ∧ TabOps.find? (tiling (.mma (product true))).teams o.team = some u ∧ o.eg ≠ 0
    ∧ TabOps.find? (tiling (.mma (product true))).grids o.grid = some g :=
  ⟨_, _, _, rfl, rfl, rfl, rfl, rfl, by decide, rfl⟩

theorem witness_MatrixSteps_zero : ∃ o u, TabOps.find? (tiling (.mzero 1)).ops 9 = some o
    ∧ (tiling (.mzero 1)).keepsTiles o.team = true ∧ o.body = .mzero 1
    ∧ TabOps.find? (tiling (.mzero 1)).teams o.team = some u ∧ 1 < u.tiles.length
    ∧ ((tiling (.mzero 1)).tileQueue o.team 1).head? = some (.op 9) := ⟨_, _, rfl, rfl, rfl, rfl, by decide, rfl⟩

/-- The wave waits at half 1, at the head of its queue. -/
def tileWaiting : State := machine [] (withFrag (fun f => { f with park := .tile 1 255, plen := 4 }))
  (fun t => { t with tiles := [Tile.start 0, { Tile.start 0 with queue := [.reader 4 0] }] }) id

theorem witness_MatrixSteps_reader : ∃ w f, (tileWaiting.tileQueue 3 1).head? = some (.reader 4 0)
    ∧ TabOps.find? tileWaiting.waves 4 = some w ∧ w.frag? 0 = some f ∧ f.park = .tile 1 255 :=
  ⟨_, _, by decide +kernel, rfl, rfl, rfl⟩

/-! ### Witnesses: traps, the kernel and Compass -/

/-- The placed machine whose grid is changed. -/
def gridMachine (hw : Wave → Wave) (hg : Grid → Grid) : State := machine [] hw id (fun s => { s with
  grids := TabOps.mapVals (fun _ g => hg g) s.grids })

theorem witness_Traps : (∃ c, plain.ctx? = some c ∧ c.w.inh = none ∧ c.g.packet.tvec ≠ 0)
    ∧ (∃ c, (machine [] (fun w => { twoFragments id w with inh := some 1 }) id id).ctx? = some c ∧ c.w.inh = some 1 ∧ 1 ≠ c.fid)
    ∧ (∃ c, (machine [] (fun w => { w with inh := some 0 }) id id).ctx? = some c ∧ c.w.inh = some c.fid ∧ c.g.life ≠ .retired)
    ∧ ∃ c, (gridMachine id (fun g => { g with packet := { g.packet with tvec := 0 } })).ctx? = some c ∧ c.w.inh = none
      ∧ c.g.packet.tvec = 0 ∧ c.g.life ≠ .retired :=
  ⟨runs_of _ (by decide +kernel), runs_of _ (by decide +kernel), runs_of _ (by decide +kernel), runs_of _ (by decide +kernel)⟩

theorem witness_TrapsTaken_debug : (∃ c, plain.ctx? = some c ∧ c.g.debugged = false)
    ∧ ∃ c, (gridMachine id (fun g => { g with debugged := true })).ctx? = some c ∧ c.g.debugged = true :=
  ⟨runs_of _ (by decide +kernel), runs_of _ (by decide +kernel)⟩

theorem witness_TrapsTaken_fence : (∃ c, (machine [] (fun w => { w with aflg := 0x0320 ||| 0x2000 }) id id).ctx? = some c
      ∧ c.w.aflg.extractLsb' 0 6 &&& c.w.aflg.extractLsb' 8 6 ≠ 0 ∧ poisonOf (c.w.vregs.take c.w.nv) &&& c.f.lanes = 0)
    ∧ (∃ c, plain.ctx? = some c ∧ c.w.aflg.extractLsb' 0 6 &&& c.w.aflg.extractLsb' 8 6 = 0
      ∧ poisonOf (c.w.vregs.take c.w.nv) &&& c.f.lanes = 0)
    ∧ ∃ c, poisonedV2.ctx? = some c ∧ poisonOf (c.w.vregs.take c.w.nv) &&& c.f.lanes ≠ 0 :=
  ⟨runs_of _ (by decide +kernel), runs_of _ (by decide +kernel), runs_of _ (by decide +kernel)⟩

theorem witness_TrapsTaken_registers : (∃ c, (machine [] (fun w => { w with ns := 8 }) id id).ctx? = some c
      ∧ c.w.budget [7, 8] [] = false)
    ∧ ∃ c, (machine [] (fun w => { w with pendRegs := [(8, 9)] }) id id).ctx? = some c ∧ c.w.budget [7, 8] [] = true
      ∧ c.w.pendingAny [7, 8] = true := ⟨runs_of _ (by decide +kernel), runs_of _ (by decide +kernel)⟩

/-- Fragment 0 is in the handler, fragment 1 as h makes it. -/
def handling (h : Fragment → Fragment) : State := machine [] (fun w => { twoFragments h w with inh := some 0 }) id id

theorem witness_TrapReturns : (∃ c, (handling id).ctx? = some c ∧ c.w.inh = some c.fid ∧ ∀ i < c.w.frags.length, i ≠ c.fid →
      (c.w.frag? i).all (fun f => f.park == .ready) = true)
    ∧ (∃ c, (handling (fun f => { f with park := .trapWait 0x400 5, plen := 8, since := 3 })).ctx? = some c
      ∧ c.w.inh = some c.fid ∧ 1 ≠ c.fid
      ∧ (c.w.frag? 1).any (fun f => f.park == .trapWait 0x400 5 && f.since == 3) = true
      ∧ (∀ j < c.w.frags.length, j ≠ c.fid → j ≠ 1 → c.w.frag? j = none) ∧ c.g.packet.tvec ≠ 0)
    ∧ ∃ c, plain.ctx? = some c ∧ c.w.inh ≠ some c.fid :=
  ⟨runs_of _ (by decide +kernel), runs_of _ (by decide +kernel), runs_of _ (by decide +kernel)⟩

theorem witness_KernelAnswers_call : (∃ c, Ready (machine [] (withS 1 1) id id) c [1, 2] [2, 3, 4, 5, 6, 7, 8, 9] ∧ (c.w.s 1).toNat ≤ 1
      ∧ ¬ c.w.s 1 = 0) ∧ ∃ c, Ready plain c [1, 2] [2, 3, 4, 5, 6, 7, 8, 9] ∧ c.w.s 1 = 0 :=
  ⟨ready_of _ (by decide +kernel), ready_of _ (by decide +kernel)⟩

/-- The wave waits for call 9. -/
def calling (code : BitVec 10) : State := machine [] (withFrag (fun f => { f with park := .sysc 9, plen := 4 })) id (fun s => { s with
  calls := [(9, { wave := 4, frag := 0, code := code, lanes := 0x80000001, args := [], sync := true, area := 0, die := 0,
                  width := 32, vd := 0, grid := 1, team := 0, idx := 0 })] })

theorem witness_KernelAnswers_completion : ∀ code ∈ [0#10, 7, 8, 1023], ∃ q w f u g, TabOps.find? (calling code).calls 9 = some q
    ∧ TabOps.find? (calling code).waves q.wave = some w ∧ w.frag? q.frag = some f ∧ f.park = .sysc 9
    ∧ TabOps.find? (calling code).teams w.team = some u ∧ TabOps.find? (calling code).grids w.grid = some g
    ∧ q.sync = true ∧ q.width = w.width := by
  intro code hc
  fin_cases hc <;> exact ⟨_, _, _, _, _, rfl, rfl, rfl, rfl, rfl, rfl, rfl, rfl⟩

theorem witness_KernelAnswers_fault : ∃ w f g, TabOps.find? (machine [] (withFrag (fun f => { f with
      park := .pageFault 0x18 0x40000000 })) id id).waves 4 = some w ∧ w.frag? 0 = some f ∧ f.park = .pageFault 0x18 0x40000000
    ∧ TabOps.find? plain.grids w.grid = some g ∧ w.inh = none ∧ g.packet.tvec ≠ 0 :=
  ⟨_, _, _, rfl, rfl, rfl, rfl, rfl, by decide +kernel⟩

theorem witness_KernelAnswers_debugger : ∃ w f, TabOps.find? (machine [] (withFrag (fun f => { f with
      park := .debugger 5 })) id id).waves 4 = some w ∧ w.frag? 0 = some f ∧ f.park = .debugger 5 := ⟨_, _, rfl, rfl, rfl⟩

/-- A policy run of two instructions at its first. -/
def theRun (ev : PolicyEvent) (loop : Option (Nat × Nat × Nat)) (steps : Nat) : PolicyRun :=
  { program := [0, 0], vd := 0, pol := 3, event := ev, pos := 0, regs := List.replicate 16 5, loop := loop, steps := steps,
    view := [[5, 0, 0, 0, 0, 0, 0, 0]], evf := [2, 1, 6, 0, 0, 0] }

/-- The machine with a policy run of device 0. -/
def running (ev : PolicyEvent) (loop : Option (Nat × Nat × Nat)) (steps : Nat) : State :=
  { plain with
    compass := some (theRun ev loop steps)
    policies := [(3, { program := [0, 0], persist := List.replicate 16 0 })] }

theorem witness_PolicyRuns_steps : ∀ loop ∈ [none, some (0, 1, 0), some (0, 1, 63), some (0, 2, 5)], ∀ steps ∈ [0, 4095],
    (running .enqueue loop steps).compass = some (theRun .enqueue loop steps) ∧ steps < 4096
    ∧ (theRun .enqueue loop steps).pos + 1 < (theRun .enqueue loop steps).program.length
    ∧ (running .enqueue loop steps).polCalls = [] := by
  intro loop hl steps hs
  fin_cases hl <;> fin_cases hs <;> exact ⟨rfl, by decide, by decide, rfl⟩

theorem witness_PolicyRuns_branch : (1#14).toInt = (1 : Nat) ∧ (0x1FFF#14).toInt = (8191 : Nat) := by decide

theorem witness_PolicyRuns_store : ∃ p, TabOps.find? (running .enqueue none 0).policies (0 * 256 + 3) = some p
    ∧ (theRun .enqueue none 0).loop = none := ⟨_, rfl, rfl⟩

theorem witness_PolicyRuns_ends : ∀ ev ∈ [PolicyEvent.enqueue, .pick 23, .sliceEnd 1],
    (running ev none 0).compass = some (theRun ev none 0) ∧ (theRun ev none 0).steps < 4096 ∧ (running ev none 0).polCalls = []
    ∧ (theRun ev none 0).regs.getD 1 0 ≠ (theRun ev none 0).evf.getD 2 0
    ∧ ((theRun ev none 0).view.any (fun c => c.headD 0 == 5)) = true := by
  intro ev he
  fin_cases he <;> exact ⟨rfl, by decide, rfl, by decide, by decide⟩

/-- A run at the end of a time slice whose result, register 1, is its own queue, which its candidates show or not. -/
def ownRun (view : List Candidate) : PolicyRun := { theRun (.sliceEnd 1) none 0 with
  evf := [2, 1, 5, 0, 0, 0]
  view := view }

theorem witness_PolicyRuns_own : ∀ view ∈ [[[5#64]], []], ({ plain with compass := some (ownRun view) } : State).compass
      = some (ownRun view)
    ∧ (ownRun view).regs.getD 1 0 = (ownRun view).evf.getD 2 0
    ∧ ((ownRun view).view.any (fun c => c.headD 0 == 5)) = decide (view ≠ []) := by
  intro view hv
  fin_cases hv <;> exact ⟨rfl, by decide, by decide⟩

theorem witness_PolicyRuns_limit : ∀ ev ∈ [PolicyEvent.enqueue, .pick 0], (running ev none 4096).compass = some (theRun ev none 4096)
    ∧ 4096 ≤ (theRun ev none 4096).steps ∧ (running ev none 4096).polCalls = []
    ∧ TabOps.find? (running ev none 4096).vds (theRun ev none 4096).vd ≠ none := by
  intro ev he
  fin_cases he <;> exact ⟨rfl, by decide, rfl, by decide +kernel⟩

/-! ### Witnesses: the memory system, the outside world and queues -/

/-- Core 0 owns line 8192, dirty in its L1. -/
def owning : State := { dirtyL1 with owners := [(8192, 0)] }

theorem witness_MemorySystem_promotion : TabOps.find? owning.owners 8192 = some 0 ∧ ((owning.core 0).l1.map Prod.fst).Nodup
    ∧ ((owning.l1 0 8192).any (fun l => decide (l.sc.toNat ≤ (2#3).toNat) && l.dirty.getLsbD 0 && l.data.length == 128)) = true
    ∧ 0 ∈ owning.fusedWith 0 ∧ owning.lineDown 8192 = false ∧ owning.codes = [] :=
  ⟨rfl, by decide +kernel, by decide +kernel, by decide +kernel, by decide +kernel, rfl⟩

theorem witness_MemorySystem_walk : (plain.cached 0 0 0x100000 = none ∧ plain.walkFor 0 0 0x100000 = some gib)
    ∧ plain.cached 0 0 0x40000000 = none ∧ plain.walkFor 0 0 0x40000000 = none := by decide +kernel

/-- Requests of two devices, of which the second has its tokens. -/
def requesting (tokens : Nat) : State := { plain with
  requests := [(0, [{ vd := 0, line := 8192, off := 0, size := 128, alloc := true },
                    { vd := 1, line := 8193, off := 112, size := 16, alloc := true }])]
  buckets := [(1, tokens)]
  msc := [(8193, { data := List.replicate 128 0, valid := 0, dirty := 0 })] }

theorem witness_MemorySystem_request : (∃ qs, TabOps.find? (requesting 1).requests 0 = some qs ∧ (requesting 1).replaying = false
      ∧ qs[1]? = some { vd := 1, line := 8193, off := 112, size := 16, alloc := true }
      ∧ 16 / 16 ≤ TabOps.get 0 (requesting 1).buckets (0 * 16 + 1) ∧ ¬ 128 / 16 ≤ TabOps.get 0 (requesting 1).buckets (0 * 16 + 0)
      ∧ (requesting 1).lineBad 8193 ((requesting 1).lineGrade 8193) = false ∧ TabOps.find? (requesting 1).msc 8193 ≠ none)
    ∧ ∃ qs, TabOps.find? (requesting 0).requests 0 = some qs ∧ qs[0]? = some { vd := 0, line := 8192, off := 0, size := 128, alloc := true }
      ∧ ∀ r ∈ qs, ¬ r.size / 16 ≤ TabOps.get 0 (requesting 0).buckets (0 * 16 + r.vd) :=
  ⟨⟨_, rfl, rfl, rfl, by decide, by decide, by decide +kernel, by decide +kernel⟩, _, rfl, rfl, by decide⟩

/-- A channel with messages of n flits each on the wire and one that was NACKed. -/
def theLink (n : Nat) (wire : List Nat) : Link :=
  { src := 0, dst := 1, cls := .request, nextSeq := 60, seen := 4, wire := wire.map (fun m => { seq := m, flits := n })
    nacked := [({ seq := 3, flits := 1 }, 0)] }

/-- The machine with that channel. -/
def linked (n : Nat) (wire : List Nat) : State := { plain with links := [(7, theLink n wire)] }

theorem witness_MemorySystem_links : ∀ m ∈ [4, 5, 6], ∃ l, TabOps.find? (linked 1 [m, 9]).links 7 = some l
    ∧ l.wire = { seq := m, flits := 1 } :: [{ seq := 9, flits := 1 }] ∧ l.seen = 4 ∧ l.hops = 1
    ∧ l.nacked = ({ seq := 3, flits := 1 }, 0) :: [] ∧ l.edge 0 ∉ (linked 1 [m, 9]).stops
    ∧ (linked 1 [m, 9]).buffered (l.edge 0) + 1 ≤ 96 := by
  intro m hm
  fin_cases hm <;> exact ⟨_, rfl, rfl, rfl, by decide, rfl, by decide, by decide⟩

/-- From die 0 to die 2 a message stands at the first of two edges, or at the last. -/
theorem witness_MemorySystem_path : ({ theLink 1 [5] with dst := 2 } : Link).hops = 2
    ∧ ({ seq := 5, flits := 1 } : Message).hop + 1 < 2 ∧ 2 ≤ ({ seq := 5, flits := 1, hop := 1 } : Message).hop + 1 := by
  decide

/-- The signal is raised above 48 flits, as one more of 33 would make, and lowered below 32. -/
theorem witness_MemorySystem_stops : (linked 16 [5, 6, 7, 8]).buffered ((theLink 16 []).edge 0) = 64
    ∧ (linked 33 [5]).buffered ((theLink 33 []).edge 0) = 33 ∧ (linked 31 [5]).buffered ((theLink 31 []).edge 0) = 31 := by decide +kernel

theorem witness_MemorySystem_retry : 0 + 64 ≤ ({ plain with cores := [(0, { Core.reset with cycle := 64 })] } : State).linkCycle
    (theLink 1 []).src := by decide

/-- A wave has waited 16 ms for port 11, which is enumerated; Dawn has unlocked stage 2. -/
def outside : State := machine [] (withFrag (fun f => { f with park := .cxl 11 0x5000, plen := 4 })) id (fun s => { s with
  cxl := s.cxl.set 11 { enumerated := true, size := 2 ^ 28, linkUp := true, available := false, fenced := false }
  cores := [(0, { Core.reset with cycle := 28000000 })]
  dawn := { s.dawn with
    running := true
    stage := 2 }
  windows := [{ fn := 16, slot := 0, index := 0 }, { fn := 100, slot := 0, index := 0 }] })

theorem witness_OutsideWorld_ports : ∃ p w f g, outside.cxl[11]? = some p ∧ TabOps.rises outside.waves = true
    ∧ TabOps.find? outside.waves 4 = some w ∧ w.frag? 0 = some f ∧ f.park = .cxl 11 0x5000 ∧ w.inh = none
    ∧ (∀ i, i ≠ 0 → w.frag? i = none)
    ∧ TabOps.find? outside.grids w.grid = some g ∧ g.packet.tvec ≠ 0 ∧ p.enumerated = true ∧ p.available = false ∧ p.fenced = false
    ∧ p.timeout * (if (outside.die w.die).service = .twilight then 875000 else 1750000)
      ≤ ((outside.core (w.die * 48 + w.core)).cycle - f.since).toNat :=
  ⟨_, _, _, _, rfl, by decide +kernel, rfl, rfl, rfl, rfl, frags_beyond (by decide +kernel), rfl, by decide +kernel, rfl, rfl, rfl,
    by decide +kernel⟩

theorem witness_OutsideWorld_sizes : ∃ p, plain.cxl[0]? = some p ∧ p.fenced = false ∧ p.enumerated = false
    ∧ 2 ^ 28 % 2 ^ 28 = 0 ∧ 2 ^ 40 % 2 ^ 28 = 0 ∧ 2 ^ 28 ≤ 2 ^ 40 := ⟨_, rfl, rfl, rfl, by decide, by decide, by decide⟩

theorem witness_OutsideWorld_serves : PortsServe outside ∧ ¬ PortsServe plain ∧ outside.dawn.running = true :=
  ⟨⟨rfl, rfl, by decide⟩, fun h => absurd h.1 (by decide), rfl⟩

theorem witness_OutsideWorld_windows : (∀ i < 8, outside.aperture 16 (0x1FFFF8 + i) = some (0x1FFFF8 + i)
      ∧ (∃ w ∈ outside.windows, w.fn = 100 ∧ w.index = (0x1FFFF8 + i) / 2 ^ 21) ∧ outside.homeState (0x1FFFF8 + i) = .ok)
    ∧ outside.aperture 16 0x200000 = none ∧ outside.aperture 16 (2 ^ 36) = none
    ∧ (∀ i < 8, outside.lineBad ((0x1FFFF8 + i) / 128) (outside.lineGrade ((0x1FFFF8 + i) / 128)) = false
      ∧ outside.transit.contains ((0x1FFFF8 + i) / 128) = false)
    ∧ 7 ∉ outside.dawn.fencedEth ∧ 0x1FFFF8 % 8 = 0 := by decide +kernel

/-- Queue 1023 of a device, active, with its ring at 0x200000 and one entry, and memory at 0x210000. -/
def queued (v : Nat) (entry operand : List Word) : State := { plain with
  vds := [(v, { plain.vd 0 with ptroot := 0, dies := 1 })]
  queues := [(1023, { Queue.unbound with state := 1, tail := 1, ring := 0x200000, vd := v, qcb := 0x220000 })]
  dram := MemOps.writeBytes (MemOps.writeBytes plain.dram 0x200000 (entry.flatMap (fun w => leBytes w.toNat 8))) 0x210000
    (operand.flatMap (fun w => leBytes w.toNat 8)) }

/-- Queue 1023 of a state. -/
def theQueue (v : Nat) : Queue := { Queue.unbound with state := 1, tail := 1, ring := 0x200000, vd := v, qcb := 0x220000 }

/-- The entry in the ring heads the queue. -/
theorem heads {v : Nat} {entry operand : List Word} {type : Nat} (h : (queued v entry operand).ringEntry (theQueue v) 0 = some entry)
    (hp : (queued v entry operand).policies = []) (hl : entryOk entry = true ∧ (entry.getD 0 0).toNat / 2 ^ 56 = type) :
    Heads (queued v entry operand) 1023 (theQueue v) entry type :=
  ⟨rfl, ⟨rfl, rfl, by simp [theQueue, Queue.unbound], rfl⟩, .inl (by rw [hp]; rfl), h, hl⟩

/-- The same queue as the last of a device's eight, its doorbell at byte 56. -/
def ringing (v : Nat) : State := { queued v [] [] with
  nodes := [(v, { first := 1016, count := 8, guest := none })]
  dawn := outside.dawn }

theorem witness_QueueCommands_page : (∃ n, TabOps.find? (ringing 0).nodes 0 = some n ∧ 7 < n.count ∧ n.first + 7 = 1023)
    ∧ PortsServe (ringing 0) ∧ TabOps.find? ((ringing 0).bindFirst 1023).queues 1023 = some (theQueue 0)
    ∧ ∀ x ∈ (ringing 1).queues, (∀ m a st, Running.bind m a st ∉ x.2.running) ∧ (x.2.next = x.2.tail ∨ x.2.vd ≠ 0) :=
  ⟨⟨_, rfl, by decide, rfl⟩, ⟨rfl, rfl, by decide⟩, by decide +kernel, by
    intro x hx
    simp only [ringing, queued, List.mem_singleton] at hx
    subst hx
    exact ⟨by simp [Queue.unbound], .inr (by decide)⟩⟩

theorem witness_QueueCommands_doorbell : TabOps.find? (queued 0 [] []).queues 1023 = some (theQueue 0) ∧ (theQueue 0).state = 1
    ∧ (2 ^ 31 ≤ ((0#32) - (theQueue 0).tail).toNat ∧ 2 ^ ((theQueue 0).logn + 4) < ((17#32) - (theQueue 0).head).toNat)
    ∧ ((16#32) - (theQueue 0).tail).toNat < 2 ^ 31 ∧ ((16#32) - (theQueue 0).head).toNat ≤ 2 ^ ((theQueue 0).logn + 4)
    ∧ Queue.unbound.state ≠ 1 := by decide +kernel

theorem witness_QueueCommands_malformed : (∀ e ∈ [[0#64, 0, 0, 0, 0, 0, 0, 0], [1 <<< 56, 0, 1, 0, 0, 0, 0, 0]],
      (queued 0 e []).ringEntry (theQueue 0) 0 = some e ∧ entryOk e = false)
    ∧ ({ queued 0 [] [] with dram := [] } : State).ringEntry (theQueue 0) 0 = none := by decide +kernel

/-- A LAUNCH entry of the packet at 0x210000. -/
def launchEntry : List Word := [1 <<< 56, 0x210000, 0, 0, 0, 0, 0, 0]

theorem witness_QueueCommands_launch : Heads (queued 0 launchEntry thePacket) 1023 (theQueue 0) launchEntry 1
    ∧ (entryRead (queued 0 launchEntry thePacket) (theQueue 0)).vaWords 0 0x210000 16 = some thePacket ∧ packetLegal thePacket true = true
    ∧ Heads (queued 0 launchEntry []) 1023 (theQueue 0) launchEntry 1
    ∧ ((entryRead (queued 0 launchEntry []) (theQueue 0)).vaWords 0 0x210000 16).any (fun ps => !packetLegal ps true) = true :=
  ⟨heads (by decide +kernel) (by decide +kernel) (by decide +kernel), by decide +kernel, by decide +kernel,
    heads (by decide +kernel) (by decide +kernel) (by decide +kernel), by decide +kernel⟩

/-- A COPY entry of n bytes. -/
def copyEntry (n : Word) : List Word := [2 <<< 56, 0x218000, 0, 0, 0x219000, 0x21A000, n, 0]

theorem witness_QueueCommands_copy : Heads (queued 0 (copyEntry 3) []) 1023 (theQueue 0) (copyEntry 3) 2
    ∧ entryCmd (copyEntry 3) 0 = none ∧ Heads (queued 0 (copyEntry 4) []) 1023 (theQueue 0) (copyEntry 4) 2
    ∧ (entryCmd (copyEntry 4) 0).isSome = true :=
  ⟨heads (by decide +kernel) (by decide +kernel) (by decide +kernel), by decide +kernel,
    heads (by decide +kernel) (by decide +kernel) (by decide +kernel), by decide +kernel⟩

/-- A COLL entry of a reduction in group 0. -/
def collEntry : List Word := [3 <<< 56, 0x218000, 0, 0, 0x219000, 0x21A000, 4, 0]

/-- The same queue, with a group table at 0x210000 whose only rank is the queue. -/
def grouped : State := { queued 0 collEntry [0x210010, 0x8000000000000001, 0xFFF3FF] with
  vds := [(0, { plain.vd 0 with ptroot := 0, dies := 1, grouptab := 0x210000 })] }

/-- What a collective entry comes to. -/
def startsColl (s : State) : Option (CollCmd × Nat) :=
  ((entryRead s (theQueue 0)).entryColl none 1023 (theQueue 0) collEntry).toOption

theorem witness_QueueCommands_coll : (∃ e, Heads (queued 0 collEntry []) 1023 (theQueue 0) collEntry 3
      ∧ (entryRead (queued 0 collEntry []) (theQueue 0)).entryColl none 1023 (theQueue 0) collEntry = .error e)
    ∧ ∃ c die, Heads grouped 1023 (theQueue 0) collEntry 3
      ∧ (entryRead grouped (theQueue 0)).entryColl none 1023 (theQueue 0) collEntry = .ok (c, die) := by
  have h1 : startsColl (queued 0 collEntry []) = none := by decide +kernel
  have h2 : (startsColl grouped).isSome = true := by decide +kernel
  constructor
  · cases h : (entryRead (queued 0 collEntry []) (theQueue 0)).entryColl none 1023 (theQueue 0) collEntry with
    | error e => exact ⟨e, heads (by decide +kernel) (by decide +kernel) (by decide +kernel), rfl⟩
    | ok x => simp [startsColl, h, Except.toOption] at h1
  · cases h : (entryRead grouped (theQueue 0)).entryColl none 1023 (theQueue 0) collEntry with
    | error e => simp [startsColl, h, Except.toOption] at h2
    | ok x => exact ⟨x.1, x.2, ⟨rfl, ⟨rfl, rfl, by simp [theQueue, Queue.unbound], rfl⟩, .inl rfl, by decide +kernel,
        by decide +kernel⟩, rfl⟩

/-- A DEPWAIT entry for the value v at 0x210000. -/
def depEntry (v : Word) : List Word := [4 <<< 56, 0x210000, v, 0, 0, 0, 0, 0]

theorem witness_QueueCommands_depwait : ∀ v ∈ [7#64, 8], Heads (queued 0 (depEntry v) [7]) 1023 (theQueue 0) (depEntry v) 4
    ∧ (entryRead (queued 0 (depEntry v) [7]) (theQueue 0)).translate (24 + 0 % 2) 0 0x210000 .load = .ok (gib, 0x210000)
    ∧ ((entryRead (queued 0 (depEntry v) [7]) (theQueue 0)).homeWord 0x210000).toNat = 7
    ∧ (queued 0 (depEntry v) [7]).logged 1023 = false ∧ (queued 0 (depEntry v) [7]).Sound := by
  intro v hv
  fin_cases hv <;> exact ⟨heads (by decide +kernel) (by decide +kernel) (by decide +kernel), by decide +kernel, by decide +kernel,
    by decide +kernel, by decide +kernel⟩

theorem witness_QueueCommands_recheck : ∀ v ∈ [7#64, 8], ∃ x : Queue, TabOps.find? ({ queued 0 [] [7] with
      queues := [(1023, { theQueue 0 with running := [.depwait 0x210000 v] })] } : State).queues 1023 = some x
    ∧ x.running = [.depwait 0x210000 v] ∧ x.vd = 0
    ∧ (queued 0 [] [7]).translate (24 + 0 % 2) 0 0x210000 .load = .ok (gib, 0x210000)
    ∧ ((queued 0 [] [7]).homeWord 0x210000).toNat = 7 := fun _ _ => ⟨_, rfl, rfl, rfl, by decide +kernel, by decide +kernel⟩

/-- A POST entry, with or without an interrupt. -/
def postEntry (f : Word) : List Word := [5 <<< 56 ||| f <<< 48, 0x210000, 9, 0, 0, 0, 0, 0]

theorem witness_QueueCommands_post : ∀ f ∈ [0#64, 1], Heads (queued 0 (postEntry f) []) 1023 (theQueue 0) (postEntry f) 5
    ∧ (let s1 := (entryRead (queued 0 (postEntry f) []) (theQueue 0)).logCommand 1023 (theQueue 0) (postEntry f) [] []
       s1.translate (24 + 0 % 2) 0 0x210000 .store = .ok (gib, 0x210000) ∧ s1.Sound
       ∧ ((s1.keep (24 + 0 % 2) 0 0x210000).homeStore none (Spot.of 0) 0x210000 (leBytes 9 8)).translate (24 + 0 % 2) 0 ((theQueue 0).qcb + 24) .load
         = .ok (gib, 0x220018)) ∧ 0x210000 % 8 = 0 := by
  intro f hf
  fin_cases hf <;> exact ⟨heads (by decide +kernel) (by decide +kernel) (by decide +kernel), by decide +kernel, rfl⟩

/-- A privileged entry of a TYPE with operands. -/
def privileged (type a v : Word) : List Word := [type <<< 56, 0x218000, a, v, 0, 0, 0, 0]

theorem witness_PrivilegedCommands_guest : ∀ t ∈ [8#64, 9, 10, 11, 12], Heads (queued 1 (privileged t 0 0) []) 1023 (theQueue 1)
    (privileged t 0 0) t.toNat ∧ (theQueue 1).vd ≠ 0 := by
  intro t ht
  fin_cases ht <;> exact ⟨heads (by decide +kernel) (by decide +kernel) (by decide +kernel), by decide⟩

/-- A privileged entry heads the queue of device 0, and its status address is mapped. -/
def Privileged (s : State) (t a v : Word) : Prop :=
  Heads s 1023 (theQueue 0) (privileged t a v) t.toNat
    ∧ (entryRead s (theQueue 0)).translate 24 0 0x218000 .store = .ok (gib, 0x218000)
    ∧ (theQueue 0).vd = 0 ∧ 0x218000 % 4 = 0

theorem privileged_of {t a v : Word} {operand : List Word}
    (h : (queued 0 (privileged t a v) operand).ringEntry (theQueue 0) 0 = some (privileged t a v))
    (hl : entryOk (privileged t a v) = true ∧ ((privileged t a v).getD 0 0).toNat / 2 ^ 56 = t.toNat)
    (ht : (entryRead (queued 0 (privileged t a v) operand) (theQueue 0)).translate 24 0 0x218000 .store = .ok (gib, 0x218000)) :
    Privileged (queued 0 (privileged t a v) operand) t a v :=
  ⟨⟨rfl, ⟨rfl, rfl, by simp [theQueue, Queue.unbound], rfl⟩, .inl rfl, h, hl⟩, ht, rfl, by decide⟩

/-- The state in which a privileged command runs, its entry read and logged. -/
def started (s : State) (e : List Word) : State :=
  ((entryRead s (theQueue 0)).keep 24 0 0x218000).logCommand 1023 (theQueue 0) e [] []

/-- A legal descriptor of a device. -/
def deviceWords : List Word := [0x200000, 0x0001000010000000, 0, 0, 0, 0, 1, 0]

/-- The operand of a load of one instruction at 0x210000 under identifier 255 of device 15. -/
def loads : Word := 0xF0FF000000000001

/-- Each of n bytes at a has a home. -/
def Homed (s : State) (a n : Nat) : Prop := ∀ i < n, s.homeState ((a + i) / 128 * 128) = .ok

theorem homed_of {s : State} {a n : Nat} (h : ((List.range n).all fun i => s.homeState ((a + i) / 128 * 128) == .ok) = true) :
    Homed s a n := fun i hi => by simpa using List.all_eq_true.mp h i (List.mem_range.mpr hi)

theorem witness_PrivilegedCommands_homed : Homed plain 0x210000 64 ∧ ¬ Homed plain 0x10000000000 64
    ∧ Privileged (queued 0 (privileged 8 0x10000000000 1) []) 8 0x10000000000 1
    ∧ Privileged (queued 0 (privileged 12 0x10000000000 loads) []) 12 0x10000000000 loads :=
  ⟨homed_of (by decide +kernel), fun h => absurd (h 0 (by decide)) (by decide +kernel),
    privileged_of (by decide +kernel) (by decide +kernel) (by decide +kernel),
    privileged_of (by decide +kernel) (by decide +kernel) (by decide +kernel)⟩

theorem witness_PrivilegedCommands_vdset : (∃ v : Word, Privileged (queued 0 (privileged 8 0x210000 v) deviceWords) 8 0x210000 v
      ∧ v.toNat < 16 ∧ vdOk (fun i => (wordsOf ((started (queued 0 (privileged 8 0x210000 v) deviceWords) (privileged 8 0x210000 v)).homeBytes
        0x210000 64) 8).getD i 0)
        = true ∧ (queued 0 (privileged 8 0x210000 v) deviceWords).hasQueues v.toNat = false)
    ∧ Privileged (queued 0 (privileged 8 0x210000 16) deviceWords) 8 0x210000 16
    ∧ (queued 0 (privileged 8 0x210000 0) deviceWords).hasQueues 0 = true :=
  ⟨⟨15, privileged_of (by decide +kernel) (by decide +kernel) (by decide +kernel), by decide, by decide +kernel, by decide +kernel⟩,
    privileged_of (by decide +kernel) (by decide +kernel) (by decide +kernel), by decide +kernel⟩

theorem witness_PrivilegedCommands_shoot : ∀ v ∈ [15#64, 16], Privileged (queued 0 (privileged 11 0 v) []) 11 0 v := by
  intro v hv
  fin_cases hv <;> exact privileged_of (by decide +kernel) (by decide +kernel) (by decide +kernel)

theorem witness_PrivilegedCommands_polload : Privileged (queued 0 (privileged 12 0x210000 loads) [0]) 12 0x210000 loads
    ∧ verify [0] = true ∧ Privileged (queued 0 (privileged 12 0x210000 loads) [0xFFFFFFFF]) 12 0x210000 loads
    ∧ verify [0xFFFFFFFF] = false :=
  ⟨privileged_of (by decide +kernel) (by decide +kernel) (by decide +kernel), by decide +kernel,
    privileged_of (by decide +kernel) (by decide +kernel) (by decide +kernel), by decide +kernel⟩

/-- The state after a bind or unbind of queue n, before its status. -/
def binds (n : Nat) (qcb : Option Word) (s : State) : Option State :=
  ((s.closeQueue n).started 1023 (.bind n qcb 0x218000)).bindDo n qcb

/-- The status address translates. -/
def stands (s : State) : Bool := s.translate 24 0 0x218000 .store == .ok (gib, 0x218000)

/-- A status address that stands in that state is what the statement asks. -/
theorem stands_of {s : State} {n : Nat} {qcb : Option Word} (h : (binds n qcb s).any stands = true) :
    StatusStands s 1023 n qcb 0x218000 := by
  intro u hu
  rw [show binds n qcb s = some u from hu] at h
  have h' : stands u = true := h
  exact ⟨gib, 0x218000, by simpa [stands] using h'⟩

theorem witness_PrivilegedCommands_unbind : Privileged ({ queued 0 (privileged 10 0 5) [] with
      queues := (5, { Queue.unbound with state := 1 }) :: (queued 0 [] []).queues } : State) 10 0 5
    ∧ (({ queued 0 (privileged 10 0 5) [] with
      queues := (5, { Queue.unbound with state := 1 }) :: (queued 0 [] []).queues } : State).queue 5).state = 1
    ∧ (binds 5 none (started ({ queued 0 (privileged 10 0 5) [] with
      queues := (5, { Queue.unbound with state := 1 }) :: (queued 0 [] []).queues } : State) (privileged 10 0 5))).any stands
        = true :=
  ⟨⟨⟨rfl, ⟨rfl, rfl, by simp [theQueue, Queue.unbound], rfl⟩, .inl rfl, by decide +kernel, by decide +kernel⟩,
    by decide +kernel, rfl, by decide⟩, rfl, by decide +kernel⟩

/-- The control block of queue 5 in device 0. -/
def block : List Word := [0x300000, 0, 0, 0, 5 <<< 38, 0,
  (crc32c (plain.vd 0).key (leBytes (5 * 2 ^ 38) 8 ++ leBytes 0 8)).zeroExtend 64, 0]

theorem witness_PrivilegedCommands_bind : ∀ bs ∈ [block, [0, 0, 0, 0, 0, 0, 0, 0]],
    Privileged (queued 0 (privileged 9 0x210000 5) bs) 9 0x210000 5
    ∧ (queued 0 (privileged 9 0x210000 5) bs).queue 5 = Queue.unbound
    ∧ (started (queued 0 (privileged 9 0x210000 5) bs) (privileged 9 0x210000 5)).vaWords
        ((queued 0 (privileged 9 0x210000 5) bs).queueVd 5) 0x210000 8 = some bs
    ∧ (binds 5 (some 0x210000) (started (queued 0 (privileged 9 0x210000 5) bs) (privileged 9 0x210000 5))).any stands = true
    ∧ (queued 0 (privileged 9 0x210000 5) bs).bindOk 5 (fun i => bs.getD i 0) = decide (bs = block) := by
  intro bs hb
  fin_cases hb <;> exact ⟨privileged_of (by decide +kernel) (by decide +kernel) (by decide +kernel), rfl, by decide +kernel,
    by decide +kernel, by decide +kernel⟩

theorem witness_PrivilegedCommands_unmapped : Privileged (queued 0 (privileged 9 0x40000000 5) []) 9 0x40000000 5
    ∧ (started (queued 0 (privileged 9 0x40000000 5) []) (privileged 9 0x40000000 5)).vaWords ((queued 0 (privileged 9 0x40000000 5) []).queueVd 5) 0x40000000 8 = none :=
  ⟨privileged_of (by decide +kernel) (by decide +kernel) (by decide +kernel), by decide +kernel⟩

theorem witness_PrivilegedCommands_error : ∃ y, TabOps.find? ({ queued 0 (privileged 10 0 5) [] with
      queues := (5, { Queue.unbound with state := 2 }) :: (queued 0 [] []).queues } : State).queues 5 = some y
    ∧ y.state = 2 ∧ y.running = [] := ⟨_, rfl, rfl, rfl⟩

theorem witness_VerifierAndReplay_verify : verify [0#32] = true ∧ ([0#32])[0]? = some 0 ∧ verify (List.replicate 257 0) = false := by
  decide +kernel

/-- A logged launch with one input of 8 bytes at 0x210000, whose digest had so many bytes more. -/
def logged (more : List Byte) : State := { queued 0 [] [7] with
  retrace := { (queued 0 [] [7]).retrace with
    log := [{ queue := 1023, command := launchEntry, packet := thePacket,
              inputs := [(0x210000, 8, sha512 [7, 0, 0, 0, 0, 0, 0, 0] ++ more)], grids := [], sysc := [], places := [] }] } }

theorem logged_bytes : (logged []).vaBytes 0 0x210000 8 = [7, 0, 0, 0, 0, 0, 0, 0]
    ∧ (logged [0]).vaBytes 0 0x210000 8 = [7, 0, 0, 0, 0, 0, 0, 0] := by decide +kernel

theorem logged_entry (more : List Byte) : ∃ e, (logged more).retrace.log[0]? = some e
    ∧ TabOps.find? (logged more).queues e.queue = some (theQueue 0) ∧ e.command = launchEntry
    ∧ e.inputs = [(0x210000, 8, sha512 [7, 0, 0, 0, 0, 0, 0, 0] ++ more)] := ⟨_, rfl, rfl, rfl, rfl⟩

theorem launchEntry_type : (launchEntry.getD 0 0).toNat / 2 ^ 56 = 1 := by decide +kernel

theorem witness_VerifierAndReplay_replay : (∃ e, (logged []).retrace.log[0]? = some e
      ∧ TabOps.find? (logged []).queues e.queue = some (theQueue 0) ∧ (theQueue 0).state = 1
      ∧ (logged []).inputsMatch (theQueue 0) e = true ∧ (e.command.getD 0 0).toNat / 2 ^ 56 = 1)
    ∧ ∃ e, (logged [0]).retrace.log[0]? = some e ∧ TabOps.find? (logged [0]).queues e.queue = some (theQueue 0)
      ∧ (logged [0]).inputsMatch (theQueue 0) e = false := by
  obtain ⟨e, h1, h2, h3, h4⟩ := logged_entry []
  obtain ⟨f, k1, k2, k3, k4⟩ := logged_entry [0]
  refine ⟨⟨e, h1, h2, rfl, ?_, by rw [h3]; exact launchEntry_type⟩, f, k1, k2, ?_⟩
  · simp only [State.inputsMatch, h4, List.all_cons, List.all_nil, show (theQueue 0).vd = 0 from rfl, logged_bytes.1]
    simp
  · simp only [State.inputsMatch, k4, List.all_cons, List.all_nil, show (theQueue 0).vd = 0 from rfl, logged_bytes.2]
    simp

set_option exponentiation.threshold 1024 in
theorem witness_VerifierAndReplay_log : (2 ^ 1023).testBit 1023 = true ∧ plain.retrace.rtq.testBit 1023 = false :=
  ⟨Nat.testBit_two_pow_self, by decide +kernel⟩

theorem witness_VerifierAndReplay_post : ((postEntry 1).getD 0 0).toNat / 2 ^ 56 = 5
    ∧ ((postEntry 0).getD 0 0).toNat / 2 ^ 56 = 5
    ∧ (logged []).translate (24 + 0 % 2) 0 ((postEntry 0).getD 1 0) .store = .ok (gib, 0x210000) := by decide +kernel


/-! ### Witnesses: pre-emption, Dawn and the step -/

/-- Device 0 has a policy under identifier 3, and queue 5 uses it; the placed grid is queue q's. -/
def policed (q : Option Nat) (svc : DieService) (gr : Grid → Grid) (n : NbLife) : State := { plain with
  policies := [(3, { program := [0, 0], persist := List.replicate 16 0 })]
  queues := [(5, { Queue.unbound with state := 1, policy := 3, tail := 2 })]
  dies := [(0, { plain.die 0 with service := svc })]
  grids := [(1, gr { placedGrid 0 [] with queue := q })]
  nbs := TabOps.mapVals (fun _ x => { x with life := n }) plain.nbs }

theorem witness_Preemption_policy : (∀ svc ∈ [DieService.full, .fenced], (policed none svc id .placed).compass = none
      ∧ (∃ p, TabOps.find? (policed none svc id .placed).policies (0 * 256 + 3) = some p)
      ∧ (policed none svc id .placed).diePlaces 0 = decide (svc = .full))
    ∧ (∀ q ∈ [none, some 5], ∃ g, (policed q .full id .placed).compass = none
      ∧ TabOps.find? (policed q .full id .placed).grids 1 = some g ∧ g.life = .running ∧ g.drain = false ∧ g.queue = q
      ∧ (∃ p, TabOps.find? (policed q .full id .placed).policies (g.vd * 256 + ((policed q .full id .placed).queue 5).policy)
        = some p))
    ∧ ({ policed (some 6) .full id .placed with queues := [] } : State).policies.length = 1
    ∧ TabOps.find? ({ policed (some 6) .full id .placed with queues := [] } : State).policies
      (0 * 256 + (({ policed (some 6) .full id .placed with queues := [] } : State).queue 6).policy) = none := by
  refine ⟨fun svc h => ?_, fun q h => ?_, rfl, by decide +kernel⟩
  · fin_cases h <;> exact ⟨rfl, ⟨_, rfl⟩, by decide +kernel⟩
  · fin_cases h
    · exact ⟨{ placedGrid 0 [] with queue := none }, rfl, rfl, rfl, rfl, rfl,
        { program := [0, 0], persist := List.replicate 16 0 }, by decide +kernel⟩
    · exact ⟨{ placedGrid 0 [] with queue := some 5 }, rfl, rfl, rfl, rfl, rfl,
        { program := [0, 0], persist := List.replicate 16 0 }, by decide +kernel⟩

theorem witness_Preemption_urgent : ∃ g n, TabOps.find? (policed none .full (fun g => { g with drain := true }) .placed).nbs 2
      = some n ∧ n.life = .placed ∧ n.grid = 1 ∧ (policed none .full (fun g => { g with drain := true }) .placed).grids = [(1, g)]
    ∧ g.drain = true ∧ g.life = .running
    ∧ TabOps.rises (policed none .full (fun g => { g with drain := true }) .placed).nbs = true :=
  ⟨_, _, rfl, rfl, rfl, rfl, rfl, rfl, by decide +kernel⟩

theorem witness_Preemption_save : ∃ n g, TabOps.find? (policed none .full id .stopping).nbs 2 = some n
    ∧ TabOps.find? (policed none .full id .stopping).grids n.grid = some g ∧ (policed none .full id .stopping).nbSavable n = true :=
  ⟨_, _, rfl, rfl, by decide +kernel⟩

/-- The saved neighbourhood of the placed grid, its image at 0x200000: the words of an image without chunks, or not. -/
def stored (words : List Word) : State := { plain with
  waves := [(4, { theWave with life := .saved, core := 100000 })]
  teams := [(3, { theTeam with life := .saved, core := 100000 })]
  nbs := TabOps.mapVals (fun _ x => { x with life := .saved, image := some 0x200000 }) plain.nbs
  dram := MemOps.writeBytes plain.dram 0x200000 (words.flatMap (fun w => leBytes w.toNat 8)) }

theorem witness_Preemption_fault : ∃ n g, TabOps.find? (stored []).nbs 2 = some n ∧ TabOps.find? (stored []).grids n.grid = some g
    ∧ n.image = some 0x200000 ∧ n.life = .saved ∧ g.life = .running ∧ (stored []).readImage 0x200000 = none :=
  ⟨_, _, rfl, rfl, rfl, rfl, rfl, by decide +kernel⟩

/-- An image without chunks. -/
def emptyImage : List Word := [0x00015A7E, 0, BitVec.ofNat 64 (crcOf (leBytes 0x00015A7E 8 ++ leBytes 0 8 ++ leBytes 32 8)), 32]

/-- What a save holds is a free value: this witness is for a save of nothing. -/
theorem witness_Preemption_restore (h : Config.contextBytes 0 = []) : ∃ n g, TabOps.find? (stored emptyImage).nbs 2 = some n
    ∧ TabOps.find? (stored emptyImage).grids n.grid = some g ∧ n.image = some 0x200000 ∧ n.life = .saved ∧ g.life = .running
    ∧ (stored emptyImage).readImage 0x200000 = some (savedChunks n.saveNo).flatten
    ∧ (stored emptyImage).restorePlace 2 n g = some (0, 0) := by
  refine ⟨_, _, rfl, rfl, rfl, rfl, rfl, ?_, by decide +kernel⟩
  have e : (savedChunks 0).flatten = [] := by unfold savedChunks; rw [h]; rfl
  exact Eq.trans (by decide +kernel : (stored emptyImage).readImage 0x200000 = some []) (congrArg some e.symm)

/-- The base point of P-521, as the public key of the private key 1. -/
def imageKey : List Byte := 4 :: ((leBytes P521.gx 66).reverse ++ (leBytes P521.gy 66).reverse)

/-- An image of a kind, signed with the private key 1 and the nonce 1: r is the base point's x, s is r + the digest
modulo n, each as a reference implementation of SHA-512 gives it. -/
def image (kind : Nat) : FlashImage :=
  { header := [0xDA57000000000000 + BitVec.ofNat 64 (kind * 2 ^ 40), 8, 0, 0], key := imageKey, body := List.replicate 8 0
    sig := (leBytes P521.gx 66).reverse ++ (leBytes ([0,
      0xc754114566f0c023419d708eddd1da259521a0935d5691456ffbb0e1a82049f8e7859ee0a03ed1f5ec69c87d64b886105fd193083ac990b2926f75791118584492,
      0xc7765150ff525bce2caeaac6036c7b643767e2ced114871a232e7860150802223fc753298dabf642e8a6e754e341be762a36bf27f3f120afc343bfcdd7dda3276c,
      0xc6f46e1455a295d5abadcfce19735e1a7f514db73cdc2a065dd0876e6426027a044fe3b89cb26f6261ecb0b3df2b6f52e648507d9e60f181ada80460cb4768a011].getD
      kind 0) 66).reverse }

/-- Flash with images of stages 1 to n, whose key slot 0 holds their key's digest. -/
def flashed (n : Nat) : Dawn := { Dawn.reset with
  running := true
  stage := 2
  flash := (List.range n).map (fun k => (none, some (image (k + 1))))
  revoked := [false]
  keyHash := [(leBytes
    0x27b9676ac0e98cf4baba737f74f65b37d42f22661cc2aaefee5afc12005e8680ac3698e53dd1f8fcbd238e72dbdbf8ceaab33e5f7e3977e86bdd151e8525f2ad
    64).reverse]
  minSvn := [0, 0, 0] }

theorem witness_PowerAndService_image : (flashed 3).image 1 = some (image 1) ∧ (flashed 3).image 2 = some (image 2)
    ∧ (flashed 3).image 3 = some (image 3) ∧ (flashed 1).image 1 = some (image 1) ∧ (flashed 1).image 2 = none := by
  have a : ∀ kind ∈ [1, 2, 3], FlashImage.accepted (flashed 3) kind (image kind) = true := by decide +kernel
  have b : FlashImage.accepted (flashed 1) 1 (image 1) = true := a 1 (.head _)
  refine ⟨?_, ?_, ?_, ?_, rfl⟩ <;>
    simp [Dawn.image, flashed, Option.filter, List.range, List.range.loop] <;>
    first
    | simpa [flashed, List.range, List.range.loop] using a _ (by simp)
    | simpa [flashed, List.range, List.range.loop] using b

theorem witness_PowerAndService_none : Dawn.reset.image 1 = none ∧ Dawn.reset.image 2 = none := by decide +kernel

theorem witness_PowerAndService_dies : (23 < 24 ∧ ({ plain with dawn := flashed 3 } : State).dawn.running = true
      ∧ (plain.die 23).trained = false ∧ (plain.die 23).service ≠ .fenced
      ∧ (flashed 3).recovery = false ∧ (flashed 3).stage ≥ 2)
    ∧ (flashed 3).missed.length = 16 ∧ (flashed 3).missed.getD 15 0 = 0
    ∧ ({ flashed 3 with missed := (flashed 3).missed.set 15 1 } : Dawn).missed.getD 15 0 = 1 := by decide +kernel

theorem witness_PowerAndService_reset : (∃ g n, ((plain.die 0).up = true ∧ TabOps.find? plain.grids 1 = some g ∧ g.life ≠ .retired
      ∧ (2, n) ∈ plain.nbs ∧ n.grid = 1 ∧ n.die = 0 ∧ n.life = .placed ∧ TabOps.rises plain.grids = true)
      ∧ plain.grids = [(1, g)] ∧ g.parent = none)
    ∧ ((policed none .resetting id .placed).die 0).service = .resetting ∧ (flashed 3).recovery = false :=
  ⟨⟨_, _, ⟨by decide +kernel, rfl, by decide, .head _, rfl, rfl, rfl, by decide +kernel⟩, rfl, rfl⟩, by decide +kernel, rfl⟩

/-- Every die has trained, every port is enumerated, and die 0, with no team, is in Twilight service. -/
def dusk : State := { plain with
  teams := []
  dies := (List.range 24).map (fun d => (d, { plain.die 0 with service := if d = 0 then .twilight else .full, trained := true }))
  cxl := plain.cxl.map (fun p => { p with enumerated := true }) }

theorem witness_PowerAndService_full : (dusk.die 0).service = .twilight
    ∧ (∀ d < 24, (dusk.die d).service ≠ .fenced → (dusk.die d).trained = true)
    ∧ (∀ p ∈ dusk.cxl, p.enumerated = true ∨ p.fenced = true)
    ∧ ∀ u ∈ dusk.teams, u.2.die = 0 → u.2.life = .retired ∨ u.2.life = .saved := by decide +kernel

theorem witness_PowerAndService_fence : 11 < plain.cxl.length ∧ (23 < 24 ∧ (2 ^ 36 * 23 + 5) / 2 ^ 36 = 23) := by decide +kernel

/-- The placed machine whose wave fetches these bytes. -/
def fetching (bs : List Byte) : State := { State.reset.placeGrid bs with agenda := [] }

/-- The bytes are those of the next instruction. -/
theorem witness_StepRunsDecoded_fetch : ∀ ps ∈ [[0x8210#16, 0x001A], [0xFFFF, 0xFFFF, 0, 0]],
    let bs : List Byte := ps.flatMap (fun p => [p.extractLsb' 0 8, p.extractLsb' 8 8])
    ∃ x w f g, (fetching bs).compass = none ∧ (fetching bs).due = none ∧ (fetching bs).agenda = [] ∧ (fetching bs).turn = false
      ∧ (fetching bs).pick = some x ∧ TabOps.find? (fetching bs).waves x.wave = some w ∧ w.frag? x.frag = some f
      ∧ TabOps.find? (fetching bs).grids w.grid = some g ∧ w.arrives f = false ∧ w.inh = none ∧ g.packet.tvec ≠ 0
      ∧ ∀ k p, ps[k]? = some p → (fetching bs).fetchParcel x.wave w g (f.pc + BitVec.ofNat 64 (2 * k)) = .ok p := by
  intro ps hb bs
  have fetch : ∀ k < ps.length, (fetching bs).fetchParcel 4 theWave (placedGrid 0x4000 bs)
      (0x4000 + BitVec.ofNat 64 (2 * k)) = .ok (ps.getD k 0) := by
    fin_cases hb <;> decide +kernel
  have all : ∃ x w f g, (fetching bs).compass = none ∧ (fetching bs).due = none ∧ (fetching bs).agenda = []
      ∧ (fetching bs).turn = false ∧ (fetching bs).pick = some x ∧ TabOps.find? (fetching bs).waves x.wave = some w
      ∧ w.frag? x.frag = some f ∧ TabOps.find? (fetching bs).grids w.grid = some g ∧ w.arrives f = false ∧ w.inh = none
      ∧ g.packet.tvec ≠ 0 ∧ (x.wave = 4 ∧ w = theWave ∧ g = placedGrid 0x4000 bs ∧ f.pc = 0x4000) := by
    fin_cases hb <;> exact ⟨⟨4, 0, 0, 0⟩, _, _, _, rfl, by decide +kernel, rfl, rfl, by decide +kernel, rfl, rfl, rfl,
      by decide +kernel, rfl, by decide +kernel, rfl, rfl, rfl, rfl⟩
  obtain ⟨x, w, f, g, h1, h2, h3, h4, h5, h6, h7, h8, h9, h10, h11, h12, h13, h14, h15⟩ := all
  refine ⟨x, w, f, g, h1, h2, h3, h4, h5, h6, h7, h8, h9, h10, h11, fun k b hk => ?_⟩
  obtain ⟨hl, rfl⟩ := List.getElem?_eq_some_iff.mp hk
  rw [h12, h13, h14, h15, fetch k hl, List.getD_eq_getElem?_getD, hk]
  rfl

theorem witness_StepRunsDecoded_decodes : decodeBytes [0x10, 0x82, 0x1A, 0x00] = .ok (.saddi 2 0 26, 4)
    ∧ (∃ e, decodeBytes [0xFF, 0xFF, 0xFF, 0xFF, 0, 0, 0, 0] = .error e) ∧ ([0xFF, 0xFF, 0xFF, 0xFF, 0, 0, 0, 0] : List Byte).length = 8 :=
  ⟨by decide +kernel, ⟨_, rfl⟩, rfl⟩

theorem witness_StepRunsDecoded_dictionary : ∃ c, (gridMachine id (fun g => { g with
      packet := { g.packet with dictN := 1 }, dict := [0x8210001A00000000] })).ctx? = some c
    ∧ (0 : BitVec 10).toNat < c.g.packet.dictN ∧ c.g.packet.dictN ≤ (1 : BitVec 10).toNat
    ∧ c.g.dict[(0 : BitVec 10).toNat]? = some 0x8210001A00000000 :=
  runs_of _ (by decide +kernel)

theorem witness_StepRunsDecoded_entry : decodeEntry 0x8210001A00000000 = .ok (.saddi 2 0 26) := by decide +kernel

theorem witness_StepRunsDecoded_policy : (∃ r w i, (running .enqueue none 0).compass = some r ∧ r.program[r.pos]? = some w
      ∧ decodeCompass w = .ok i)
    ∧ ∃ t, ({ plain with agenda := [.event (.heartbeat 0)], cur := none } : State).compass = none
      ∧ ({ plain with agenda := [.event (.heartbeat 0)], cur := none } : State).due = none
      ∧ exec (.heartbeat 0) { plain with agenda := [], cur := none } = .next t :=
  ⟨⟨_, 0, .cNop, rfl, rfl, by decide +kernel⟩, _, rfl, by decide +kernel, rfl⟩

theorem witness_DecodeOfEncode : (.saddi 2 0 26 : Instr).wf = true ∧ encode (.saddi 2 0 26) = some (.word 0x8210001A)
    ∧ (∀ w : BitVec 32, Code.word 0x8210001A ≠ Code.compass w) ∧ (.cLde 1 1 : Instr).wf = true ∧ encode (.cLde 1 1) = some (.compass 0x5C400001) :=
  ⟨by decide +kernel, by decide +kernel, fun _ => by simp, by decide +kernel, by decide +kernel⟩

/-- The reset state meets the invariants, and a step leads on from the placed machine. -/
theorem witness_Invariants : MemoriesOk (fetching [0x10, 0x82, 0x1A, 0x00]) ∧ MaskInLanes (fetching [0x10, 0x82, 0x1A, 0x00])
    ∧ ∃ t, step (fetching [0x10, 0x82, 0x1A, 0x00]) = .next t := by
  refine ⟨⟨by decide +kernel, by decide +kernel, by decide +kernel⟩, ?_, ?_⟩
  · intro w hw i f hf
    obtain rfl : w = (4, theWave) := by simpa using (List.mem_singleton.mp hw : w = (4, theWave))
    match i with
    | 0 => obtain rfl := Option.some.inj hf; decide +kernel
    | i + 1 => exact absurd hf (by rw [frags_beyond (p := fun i => i ≠ 0) (by decide +kernel) (i + 1) (by omega)]; simp)
  · have h : (match step (fetching [0x10, 0x82, 0x1A, 0x00]) with | .next _ => true | _ => false) = true := by decide +kernel
    cases hs : step (fetching [0x10, 0x82, 0x1A, 0x00]) with
    | next t => exact ⟨t, rfl⟩
    | fault _ | refused _ => rw [hs] at h; cases h

theorem witness_EveryStepGoesOn : (plain.ctx? ≠ none ∧ encode (.saddi 2 0 26) = some (.word 0x8210001A))
    ∧ ((running .enqueue none 0).compass ≠ none ∧ encode .cRetn = some (.compass 0x6C000000))
    ∧ encode (.heartbeat 0) = none := by decide +kernel

/-! ### Single steps: results that the spec works out, or that its tables give at a corner -/

/-- A scalar register of the wave after an instruction. -/
def scalarAfter (o : Host.Outcome State Fault Refusal) (r : SReg) : Option Word :=
  match o with
  | .next t => (t.waveAt 4).map (fun w => w.s r)
  | _ => none

/-- Lanes of a vector register of the wave after an instruction. -/
def lanesAfter (o : Host.Outcome State Fault Refusal) (v : Nat) (ls : List Nat) : Option (List Lane) :=
  match o with
  | .next t => (t.waveAt 4).map (fun w => ls.map (fun l => (w.v v).lane l))
  | _ => none

/-- The wave with S3 and S4. -/
def scalars (a b : Word) : State := machine [] (fun w => withS 3 a (withS 4 b w)) id id

/-- A modifier word with SAT 0b01 or without, and a third source. -/
def sourced (sat : BitVec 2) (c : BitVec 8) : ModWord :=
  { sat := sat, nega := false, negb := false, absa := false, absb := false, scale := 0, rnd := 0, srcc := c }

/-- R98: a sum wraps; the most negative number has no negative, and a division by 0 gives all ones or its dividend. -/
theorem test_scalar_corners : scalarAfter (exec (.sadd 5 3 4) (scalars 0xFFFFFFFFFFFFFFFF 2)) 5 = some 1
    ∧ scalarAfter (exec (.sdiv 5 3 4) (scalars 0x8000000000000000 0xFFFFFFFFFFFFFFFF)) 5 = some 0x8000000000000000
    ∧ scalarAfter (exec (.srem 5 3 4) (scalars 0xFFFFFFFFFFFFFFF9 2)) 5 = some 0xFFFFFFFFFFFFFFFF
    ∧ scalarAfter (exec (.sdiv 5 3 4) (scalars 7 0)) 5 = some 0xFFFFFFFFFFFFFFFF
    ∧ scalarAfter (exec (.srem 5 3 4) (scalars 7 0)) 5 = some 7 := by decide +kernel

/-- R98: the shifts take 6 bits; the destination is read by SSEL before it is written. -/
theorem test_scalar_shifts : scalarAfter (exec (.ssra 5 3 4) (scalars 0x8000000000000000 0x47)) 5 = some 0xFF00000000000000
    ∧ scalarAfter (exec (.ssel 4 3 3) (scalars 9 0)) 4 = some 9 ∧ scalarAfter (exec (.sclz 5 3) (scalars 0 0)) 5 = some 64
    ∧ scalarAfter (exec (.sadd 0 3 4) (scalars 3 4)) 0 = some 0 := by decide +kernel

/-- R99: a field of 8 bits from bit 60 has 4 bits that exist. -/
theorem test_fields : scalarAfter (exec (.sbfx 5 3 4) (scalars 0xA000000000000001 0x073C)) 5 = some 0xA
    ∧ scalarAfter (exec (.sbfi 3 4 4) (scalars 0 0x073C)) 3 = some 0xC000000000000000 := by decide +kernel

/-- R101: SLUI then SADDI build 0x12345678: hi = 0x91A3, lo = -2440. -/
theorem test_upper : scalarAfter (exec (.slui 5 0x91A3) (scalars 0 0)) 5 = some 0x12346000
    ∧ scalarAfter (exec (.saddi 5 3 0x1678) (scalars 0x12346000 0)) 5 = some 0x12345678
    ∧ scalarAfter (exec (.slui 5 0x40000) (scalars 0 0)) 5 = some 0xFFFFFFFF80000000 := by decide +kernel

/-- R120: 5 shifted by 1 gives 3, and -5 shifted by 1 gives -2. -/
theorem test_rounding_shift :
    lanesAfter (exec (.vshrrVi none false 3 1 1) (machine [] (withV 1 5) id id)) 3 [0, 31] = some [3, 3]
    ∧ lanesAfter (exec (.vshrrVi none false 3 1 1) (machine [] (withV 1 0xFFFFFFFB) id id)) 3 [31] = some [0xFFFFFFFE] := by
  decide +kernel

/-- The worked accumulation's first line in its lane 0 and in its others. -/
def accumulation (a b c : Lane) : State := machine [] (fun w => withV 2 a (withV 3 b (withV 8 c w))) id id

/-- The worked accumulation: clamped, wrapped and in range. -/
theorem test_accumulation :
    lanesAfter (exec (.vmac2I16 (some (sourced 1 8)) false 8 2 3) (accumulation 0x7FFF7FFF 0x7FFF7FFF 0x7FF00000)) 8 [0]
      = some [0x7FFFFFFF]
    ∧ lanesAfter (exec (.vmac2I16 none false 8 2 3) (accumulation 0x7FFF7FFF 0x7FFF7FFF 0x7FF00000)) 8 [0] = some [0xFFEE0002]
    ∧ lanesAfter (exec (.vmac2I16 (some (sourced 1 8)) false 8 2 3) (accumulation 0x00020003 0xFFFF0004 5)) 8 [31] = some [15] := by
  decide +kernel

/-- The worked accumulation's third line: 0 < 1 in every lane. -/
theorem test_compare : scalarAfter (exec (.vcmpI32 none 2 1 9 193) (machine [] (withV 9 0) id id)) 34 = some 0xFFFFFFFF
    ∧ scalarAfter (exec (.vcmpI32 none 2 1 9 193) (machine [] (withV 9 65536) id id)) 34 = some 0 := by decide +kernel

/-- R128: 1.0 + 3.0 + 0.5 = 4.5. -/
theorem test_dot : lanesAfter (exec (.vdot2Bf16 (some (sourced 0 8)) false 4 2 3) (accumulation 0x40003FC0 0x3E804000 0x3F800000)) 4
    [0, 31] = some [0x40900000, 0x40900000] := by decide +kernel

/-- R55: ties go to even: 1.0 + 2^-24 ties to 1.0, 1.0 + 3·2^-24 to 1.0 + 2^-22. -/
theorem test_ties :
    lanesAfter (exec (.vfadd none false 4 2 3) (accumulation 0x3F800000 0x33800000 0)) 4 [0] = some [0x3F800000]
    ∧ lanesAfter (exec (.vfadd none false 4 2 3) (accumulation 0x3F800000 0x34400000 0)) 4 [0] = some [0x3F800002] := by
  decide +kernel

/-- R110: MPOPC counts the mask, MASKSET keeps to the lanes of a wave of 32. -/
theorem test_mask : scalarAfter (exec (.mpopc 5) (scalars 0 0)) 5 = some 32
    ∧ scalarAfter (match exec (.maskset 3) (scalars 0xF0000000F 0) with | .next t => exec (.maskget 5) t | o => o) 5 = some 0xF := by
  decide +kernel

/-- R102: 3 - 5 is negative, borrows and does not overflow: N, not Z, not C, not V. -/
theorem test_flags : (match exec (.scmp 3 4) (scalars 3 5) with | .next t => (t.waveAt 4).map (fun w => w.flg) | _ => none) = some 8 := by
  decide +kernel

end Sys2Proof.Tests
end

section
/-! SUPPORT. The values of the scalar instructions in the terms of R98 to R104, the shared operation that each instruction
is, and the statements about them. -/

namespace Sys2Proof.Machine

/-! ### Products, quotients and remainders (R98) -/

/-- Bits 127 to 64 of an integer are its quotient by 2^64, rounded down. -/
theorem extract_high_ofInt (m : Int) : (BitVec.ofInt 128 m).extractLsb' 64 64 = BitVec.ofInt 64 (m / 2 ^ 64) := by
  apply BitVec.eq_of_toNat_eq
  simp only [BitVec.extractLsb'_toNat, BitVec.toNat_ofInt, Nat.shiftRight_eq_div_pow]
  omega

theorem mulHigh_eq (x y : Word) : mulHigh x y = (x.signExtend 128 * y.signExtend 128).extractLsb' 64 64 := by
  rw [BitVec.signExtend, BitVec.signExtend, ← BitVec.ofInt_mul, extract_high_ofInt, mulHigh]

theorem zeroExtend_eq_ofInt (x : Word) : x.zeroExtend 128 = BitVec.ofInt 128 x.toNat := by
  apply BitVec.eq_of_toNat_eq
  rw [BitVec.ofInt_natCast, BitVec.toNat_ofNat, BitVec.toNat_setWidth]

theorem mulHighZ_eq (x y : Word) : mulHighZ x y = (x.zeroExtend 128 * y.zeroExtend 128).extractLsb' 64 64 := by
  rw [zeroExtend_eq_ofInt, zeroExtend_eq_ofInt, ← BitVec.ofInt_mul, extract_high_ofInt]
  exact (BitVec.ofInt_natCast 64 _).symm

theorem divS_eq (x y : Word) : divS x y = if y = 0 then BitVec.allOnes 64 else x.sdiv y := by
  unfold divS
  congr 1
  apply BitVec.eq_of_toInt_eq
  rw [BitVec.toInt_ofInt, BitVec.toInt_sdiv]

theorem divZ_eq (x y : Word) : divZ x y = if y = 0 then BitVec.allOnes 64 else x.udiv y := by
  rw [divZ, ← BitVec.toNat_udiv, BitVec.ofNat_toNat, BitVec.setWidth_eq]
  rfl

theorem remS_eq (x y : Word) : remS x y = if y = 0 then x else x.srem y := by
  rw [remS, ← BitVec.toInt_srem, BitVec.ofInt_toInt]

theorem remZ_eq (x y : Word) : remZ x y = if y = 0 then x else x.umod y := by
  rw [remZ, ← BitVec.toNat_umod, BitVec.ofNat_toNat, BitVec.setWidth_eq]
  rfl

/-! ### Minima and maxima (R98) -/

theorem ite_slt_swap (x y : Word) : (if y.slt x then y else x) = if x.toInt ≤ y.toInt then x else y := by
  simp only [BitVec.slt, decide_eq_true_eq, ← not_le, ite_not]

theorem ite_slt (x y : Word) : (if x.slt y then y else x) = if x.toInt ≤ y.toInt then y else x := by
  simp only [BitVec.slt, decide_eq_true_eq]
  obtain h | h | h := lt_trichotomy x.toInt y.toInt
  · rw [if_pos h, if_pos h.le]
  · rw [BitVec.eq_of_toInt_eq h, ite_self, ite_self]
  · rw [if_neg h.le.not_gt, if_neg h.not_ge]

theorem ite_ult_swap (x y : Word) : (if y.ult x then y else x) = if x.toNat ≤ y.toNat then x else y := by
  simp only [BitVec.ult, decide_eq_true_eq, ← not_le, ite_not]

theorem ite_ult (x y : Word) : (if x.ult y then y else x) = if x.toNat ≤ y.toNat then y else x := by
  simp only [BitVec.ult, decide_eq_true_eq]
  obtain h | h | h := lt_trichotomy x.toNat y.toNat
  · rw [if_pos h, if_pos h.le]
  · rw [BitVec.eq_of_toNat_eq h, ite_self, ite_self]
  · rw [if_neg h.le.not_gt, if_neg h.not_ge]

/-! ### Counts of bits (R98) -/

theorem leadingZeros_le (x : Word) : leadingZeros 64 x.toNat ≤ 64 := by
  unfold leadingZeros
  split <;> omega

/-- A number that is not 0 has its highest one bit below its leading zeros. -/
theorem leadingZeros_add_log2 {x : Word} (h : x.toNat ≠ 0) : leadingZeros 64 x.toNat + x.toNat.log2 = 63 := by
  have := (Nat.log2_lt h).2 x.isLt
  rw [leadingZeros, if_neg h]
  omega

theorem lt_two_pow_leadingZeros (x : Word) : x.toNat < 2 ^ (64 - leadingZeros 64 x.toNat) := by
  by_cases h : x.toNat = 0
  · rw [h]; exact Nat.two_pow_pos _
  · have e := leadingZeros_add_log2 h
    rw [show 64 - leadingZeros 64 x.toNat = x.toNat.log2 + 1 by omega]
    exact Nat.lt_log2_self

theorem two_pow_leadingZeros_le {x : Word} (hn : leadingZeros 64 x.toNat < 64) :
    2 ^ (63 - leadingZeros 64 x.toNat) ≤ x.toNat := by
  have h : x.toNat ≠ 0 := fun h => by rw [leadingZeros, if_pos h] at hn; exact hn.ne rfl
  have e := leadingZeros_add_log2 h
  rw [show 63 - leadingZeros 64 x.toNat = x.toNat.log2 by omega]
  exact Nat.log2_self_le h

theorem popCount_eq_length (x : BitVec 128) (n : Nat) : popCount x n = ((List.range n).filter x.getLsbD).length := by
  induction n with
  | zero => rfl
  | succ n ih =>
    rw [popCount, ih, List.range_succ, List.filter_append, List.length_append, Nat.add_comm]
    cases h : x.getLsbD n <;> simp [h]

theorem popCount_zeroExtend (x : Word) :
    popCount (x.zeroExtend 128) 64 = ((List.range 64).filter x.getLsbD).length := by
  rw [popCount_eq_length]
  refine congrArg List.length (List.filter_congr fun i hi => ?_)
  have : i < 128 := by rw [List.mem_range] at hi; omega
  simp [this]

/-! ### Fields (R99) -/

theorem fieldMask_getLsbD (y : Word) (i : Nat) : (fieldMask y).getLsbD i = decide (i < y.toNat / 256 % 64 + 1) := by
  have : y.toNat / 256 % 64 < 64 := Nat.mod_lt _ (by decide)
  rw [fieldMask, BitVec.getLsbD_ofNat, Nat.testBit_two_pow_sub_one]
  simp [bits]
  omega

theorem fieldGet_eq (x y : Word) :
    fieldGet x y = BitVec.ofNat 64 (x.toNat / 2 ^ (y.toNat % 64) % 2 ^ (y.toNat / 256 % 64 + 1)) := by
  apply BitVec.eq_of_getLsbD_eq
  intro i hi
  rw [fieldGet, BitVec.getLsbD_and, fieldMask_getLsbD, BitVec.getLsbD_ofNat, Nat.testBit_mod_two_pow,
    Nat.testBit_div_two_pow, BitVec.getLsbD_ushiftRight, Bool.and_comm, Nat.add_comm i]
  simp only [hi, amount, BitVec.getLsbD, decide_true, Bool.true_and]

/-- Bit i of an inserted field comes from the source inside the field and from the old value outside it. -/
theorem fieldPut_getLsbD (o x y : Word) {i : Nat} (hi : i < 64) : (fieldPut o x y).getLsbD i =
    if y.toNat % 64 ≤ i ∧ i < y.toNat % 64 + (y.toNat / 256 % 64 + 1) then x.getLsbD (i - y.toNat % 64)
    else o.getLsbD i := by
  simp only [fieldPut, amount, fieldMask_getLsbD, hi, BitVec.getLsbD_or, BitVec.getLsbD_and, BitVec.getLsbD_not,
    BitVec.getLsbD_shiftLeft, decide_true, Bool.true_and]
  generalize y.toNat % 64 = lo, y.toNat / 256 % 64 + 1 = len
  by_cases below : i < lo
  · simp [below, Nat.not_le.mpr below]
  · by_cases inside : i - lo < len
    · have : lo ≤ i ∧ i < lo + len := by omega
      simp [below, inside, this]
    · have : ¬(lo ≤ i ∧ i < lo + len) := by omega
      simp [below, inside, this]

/-! ### Shifted operands (R101, R103) -/

theorem append_zero_eq_shiftLeft (u : BitVec 19) : u ++ 0#13 = u.zeroExtend 32 <<< 13 := by
  apply BitVec.eq_of_getLsbD_eq
  intro i hi
  rw [BitVec.getLsbD_append, BitVec.getLsbD_shiftLeft, BitVec.getLsbD_setWidth]
  by_cases low : i < 13
  · simp [low]
  · have : i - 13 < 32 := by omega
    simp [low, hi, this]

theorem shiftLeft_eq_mul (y : Word) (n : Nat) : y <<< n = y * BitVec.ofNat 64 (2 ^ n) := by
  apply BitVec.eq_of_toNat_eq
  simp [Nat.shiftLeft_eq]

theorem shiftLeft_one_eq_two_mul (o : Word) : o <<< 1 = 2 * o := by bv_omega

/-! ### The shared operation of each instruction, with its function as the rules give it -/

section
variable (s : State) (d a b : SReg)

theorem exec_sadd : exec (.sadd d a b) s = aluOp s d a b (· + ·) := rfl
theorem exec_ssub : exec (.ssub d a b) s = aluOp s d a b (· - ·) := rfl
theorem exec_smul : exec (.smul d a b) s = aluOp s d a b (· * ·) := rfl
theorem exec_smulh : exec (.smulh d a b) s =
    aluOp s d a b (fun x y => (x.signExtend 128 * y.signExtend 128).extractLsb' 64 64) :=
  congrArg (aluOp s d a b) (funext₂ mulHigh_eq)
theorem exec_smulhz : exec (.smulhz d a b) s =
    aluOp s d a b (fun x y => (x.zeroExtend 128 * y.zeroExtend 128).extractLsb' 64 64) :=
  congrArg (aluOp s d a b) (funext₂ mulHighZ_eq)
theorem exec_sdiv : exec (.sdiv d a b) s =
    aluOp s d a b (fun x y => if y = 0 then BitVec.allOnes 64 else x.sdiv y) :=
  congrArg (aluOp s d a b) (funext₂ divS_eq)
theorem exec_sdivz : exec (.sdivz d a b) s =
    aluOp s d a b (fun x y => if y = 0 then BitVec.allOnes 64 else x.udiv y) :=
  congrArg (aluOp s d a b) (funext₂ divZ_eq)
theorem exec_srem : exec (.srem d a b) s = aluOp s d a b (fun x y => if y = 0 then x else x.srem y) :=
  congrArg (aluOp s d a b) (funext₂ remS_eq)
theorem exec_sremz : exec (.sremz d a b) s = aluOp s d a b (fun x y => if y = 0 then x else x.umod y) :=
  congrArg (aluOp s d a b) (funext₂ remZ_eq)
theorem exec_sand : exec (.sand d a b) s = aluOp s d a b (· &&& ·) := rfl
theorem exec_sor : exec (.sor d a b) s = aluOp s d a b (· ||| ·) := rfl
theorem exec_sxor : exec (.sxor d a b) s = aluOp s d a b (· ^^^ ·) := rfl
theorem exec_sshl : exec (.sshl d a b) s = aluOp s d a b (fun x y => x <<< (y.toNat % 64)) := rfl
theorem exec_sshr : exec (.sshr d a b) s = aluOp s d a b (fun x y => x >>> (y.toNat % 64)) := rfl
theorem exec_ssra : exec (.ssra d a b) s = aluOp s d a b (fun x y => x.sshiftRight (y.toNat % 64)) := rfl
theorem exec_srol : exec (.srol d a b) s = aluOp s d a b (fun x y => x.rotateLeft (y.toNat % 64)) := rfl
theorem exec_smin : exec (.smin d a b) s = aluOp s d a b (fun x y => if x.toInt ≤ y.toInt then x else y) := by
  change execSmin d a b s = _
  simp only [execSmin, ite_slt_swap]
theorem exec_smax : exec (.smax d a b) s = aluOp s d a b (fun x y => if x.toInt ≤ y.toInt then y else x) := by
  change execSmax d a b s = _
  simp only [execSmax, ite_slt]
theorem exec_sminz : exec (.sminz d a b) s = aluOp s d a b (fun x y => if x.toNat ≤ y.toNat then x else y) := by
  change execSminz d a b s = _
  simp only [execSminz, ite_ult_swap]
theorem exec_smaxz : exec (.smaxz d a b) s = aluOp s d a b (fun x y => if x.toNat ≤ y.toNat then y else x) := by
  change execSmaxz d a b s = _
  simp only [execSmaxz, ite_ult]
theorem exec_sbfx : exec (.sbfx d a b) s =
    aluOp s d a b (fun x y => BitVec.ofNat 64 (x.toNat / 2 ^ (y.toNat % 64) % 2 ^ (y.toNat / 256 % 64 + 1))) :=
  congrArg (aluOp s d a b) (funext₂ fieldGet_eq)
theorem exec_sclz : exec (.sclz d a) s = unaryOp s d a (fun x => BitVec.ofNat 64 (leadingZeros 64 x.toNat)) := rfl
theorem exec_spopc : exec (.spopc d a) s =
    unaryOp s d a (fun x => BitVec.ofNat 64 ((List.range 64).filter x.getLsbD).length) := by
  change execSpopc d a s = _
  simp only [execSpopc, popCount_zeroExtend]
theorem exec_sbfi : exec (.sbfi d a b) s = alu3Op s d a b fieldPut := rfl
theorem exec_ssel : exec (.ssel d a b) s = alu3Op s d a b (fun o x y => if o ≠ 0 then x else y) := rfl
theorem exec_slea (h : BitVec 3) : exec (.slea d a b h) s =
    aluOp s d a b (fun x y => x + y * BitVec.ofNat 64 (2 ^ h.toNat)) := by
  change execSlea d a b h s = _
  simp only [execSlea, shiftLeft_eq_mul]
theorem exec_slui (u : BitVec 19) : exec (.slui d u) s = execSlui d u s := rfl
theorem exec_jmpr : exec (.jmpr a) s = jumpReg s a := rfl
theorem exec_ret : exec (.ret a) s = jumpReg s a := rfl

end

section
variable (s : State) (d a : SReg) (i : BitVec 13) (n : BitVec 6)

theorem exec_saddi : exec (.saddi d a i) s = unaryOp s d a (· + i.signExtend 64) := rfl
theorem exec_sandi : exec (.sandi d a i) s = unaryOp s d a (· &&& i.signExtend 64) := rfl
theorem exec_sori : exec (.sori d a i) s = unaryOp s d a (· ||| i.signExtend 64) := rfl
theorem exec_sxori : exec (.sxori d a i) s = unaryOp s d a (· ^^^ i.signExtend 64) := rfl
theorem exec_sshli : exec (.sshli d a n) s = unaryOp s d a (· <<< n.toNat) := rfl
theorem exec_sshri : exec (.sshri d a n) s = unaryOp s d a (· >>> n.toNat) := rfl
theorem exec_ssrai : exec (.ssrai d a n) s = unaryOp s d a (·.sshiftRight n.toNat) := rfl

end

section
variable (s : State) (q : BitVec 15)

theorem exec_br (o : BitVec 25) : exec (.br o) s = branchIf s (o.signExtend 64) (fun _ => true) := rfl
theorem exec_bc (k : BitVec 4) :
    exec (.bc k q) s = branchIf s (q.signExtend 64) (fun c => condHolds k c.w.flg) := rfl
theorem exec_bmz : exec (.bmz q) s = branchIf s (q.signExtend 64) (fun c => c.f.mask == 0) := rfl
theorem exec_bmnz : exec (.bmnz q) s = branchIf s (q.signExtend 64) (fun c => c.f.mask != 0) := rfl

end

/-! ### Arithmetic and logic (R98, R99) -/

/-- Settles O1: each row is a shared operation, whose rule gives the register, the tag and the frame. -/
theorem scalarArithmetic : Obligations.ScalarArithmetic := by
  unfold Obligations.ScalarArithmetic
  refine ⟨fun s c d a b h => ?_, fun s c d a h => ⟨?_, ?_⟩, fun s c d a b h => ⟨?_, ?_⟩⟩
  · simp only [List.forall_mem_cons, List.not_mem_nil, false_imp_iff, implies_true, and_true, exec_sadd, exec_ssub,
      exec_smul, exec_smulh, exec_smulhz, exec_sdiv, exec_sdivz, exec_srem, exec_sremz, exec_sand, exec_sor, exec_sxor,
      exec_sshl, exec_sshr, exec_ssra, exec_srol, exec_smin, exec_smax, exec_sminz, exec_smaxz, exec_sbfx]
    and_intros <;> exact aluOp_writes h _
  · rw [exec_sclz]
    exact ⟨_, leadingZeros_le _, lt_two_pow_leadingZeros _, two_pow_leadingZeros_le, unaryOp_writes h _⟩
  · rw [exec_spopc]
    exact unaryOp_writes h _
  · rw [exec_sbfi]
    exact ⟨_, fun i hi => fieldPut_getLsbD _ _ _ hi, alu3Op_writes h _⟩
  · rw [exec_ssel]
    exact alu3Op_writes h _

/-! ### Immediate forms (R100, R101) -/

/-- An instruction that names some of the registers of a ready one is ready. -/
theorem Ready.mono {s : State} {c : Ctx} {ss ts : List Nat} (h : Ready s c ss []) (hs : ts ⊆ ss) : Ready s c ts [] := by
  have allocated := h.allocated
  have arrived := h.arrived
  simp only [Wave.budget, Wave.pendingAny, Bool.and_eq_true, List.all_eq_true, List.any_eq_false] at allocated arrived
  refine ⟨h.runs, ?_, ?_, fun r hr hm => h.observed r hr (hs hm), h.unstruck⟩
  · simp only [Wave.budget, Bool.and_eq_true, List.all_eq_true]
    exact ⟨fun r hr => allocated.1 r (hs hr), allocated.2⟩
  · simp only [Wave.pendingAny, List.any_eq_false]
    exact fun r hr => arrived r (hs hr)

/-- SLUI writes its value, tagged with the execution grade (R101). -/
theorem execSlui_writes {s : State} {c : Ctx} {d : SReg} (h : Ready s c [d.toNat] []) (u : BitVec 19) :
    WritesScalar s c (execSlui d u s) d ((u.zeroExtend 32 <<< 13).signExtend 64) c.w.egNow := by
  rw [execSlui, scalarOp_ready h, Ctx.repeated_unstruck (by simpa using h.unstruck), append_zero_eq_shiftLeft]
  simpa using c.next_repeated s 64 d _ c.w.egNow

/-- A 13-bit immediate above 63 has a bit of [12:6] set. -/
theorem extract_high_ne_zero {w : BitVec 32} (h : 64 ≤ (w.extractLsb' 0 13).toNat) : w.extractLsb' 6 7 ≠ 0#7 := by
  intro e
  have e := congrArg BitVec.toNat e
  simp only [BitVec.extractLsb'_toNat, BitVec.toNat_ofNat, Nat.shiftRight_eq_div_pow] at h e
  omega

/-- A scalar word of majors 6 to 8 whose shift is above 63 is no instruction (R87, R100). -/
theorem decode_wideShift {w : BitVec 32} (hs : w.getLsbD 31 = true) (lo : 6 ≤ fMajor w) (hi : fMajor w ≤ 8)
    (hw : 64 ≤ (w.extractLsb' 0 13).toNat) : decode (.word w) = .error .nonzero := by
  have hne := extract_high_ne_zero hw
  have hd : decodeScalar w = .error .nonzero := by
    have : fMajor w = 6 ∨ fMajor w = 7 ∨ fMajor w = 8 := by omega
    obtain h | h | h := this <;> simp [decodeScalar, h, need, hne]
  simp [decode, decodeWord, hs, hd, checked]

/-- Settles O2: the rules of the shared operations at the immediate, and the decoder's check of a shift. -/
theorem scalarImmediates : Obligations.ScalarImmediates := by
  unfold Obligations.ScalarImmediates
  refine ⟨fun s c d a b i n u k h => ⟨?_, ?_, fun hb => ?_⟩, fun w hs lo hi hw => ⟨_, decode_wideShift hs lo hi hw⟩⟩
  · simp only [List.forall_mem_cons, List.not_mem_nil, false_imp_iff, implies_true, and_true, exec_saddi, exec_sandi,
      exec_sori, exec_sxori, exec_sshli, exec_sshri, exec_ssrai]
    and_intros <;> exact unaryOp_writes h _
  · rw [exec_slui]
    exact execSlui_writes (h.mono (by simp)) u
  · rw [exec_slea]
    exact aluOp_writes hb _

/-! ### Branches (R89, R103, R104) -/

/-- A taken direct branch goes to its own address plus 2 × its offset (R103); `P` gives its condition in the terms of the
context before the branch. -/
theorem branchIf_leaves_doubled {s : State} {c : Ctx} (h : s.ctx? = some c) (o : Word) {p : Ctx → Bool} {P : Prop}
    [Decidable P] (hp : p c.ended = true ↔ P) :
    LeavesWave s c (branchIf s o p) c.w.closed (if P then c.f.pc + 2 * o else c.following) := by
  rw [← shiftLeft_one_eq_two_mul, ← if_congr hp rfl rfl]
  exact branchIf_leaves h o p

/-- Settles O4: the rules of a direct branch and of a transfer through a register, for each condition of R89. -/
theorem branches : Obligations.Branches := by
  unfold Obligations.Branches
  intro s c a k o q h far near n z cf v
  refine ⟨?_, ?_, ?_, fun p hp hk => ?_, fun hr => ⟨?_, ?_⟩⟩
  · rw [exec_br]
    exact branchIf_leaves_doubled h _ (P := True) (by simp)
  · rw [exec_bmz]
    exact branchIf_leaves_doubled h _ (by simp)
  · rw [exec_bmnz]
    exact branchIf_leaves_doubled h _ (by simp)
  · have holds : condHolds k c.w.flg = p.2 := by
      subst hk
      revert p
      simp only [List.forall_mem_cons, List.not_mem_nil, false_imp_iff, implies_true, and_true]
      and_intros <;> rfl
    rw [exec_bc]
    exact branchIf_leaves_doubled h _ (by simp [holds])
  · rw [exec_jmpr]
    exact jumpReg_leaves hr
  · rw [exec_ret]
    exact jumpReg_leaves hr

end Sys2Proof.Machine
end

section
/-! SUPPORT. The event instructions EVMASK, EVPOLL and EVCLR in the terms of R181, and the statement about them. -/

namespace Sys2Proof.Machine

/-! ### Scalar instructions that are not repeated -/

/-- An instruction that ends with the next one to follow leaves the wave with its chain ended (R40, R43). -/
theorem Ctx.next_eq (c : Ctx) (s : State) (w : Wave) :
    c.ended.next s w = s.setWave c.wid (w.closed.moved c c.following) := Ctx.jump_eq c s w _

/-- A register written with the grade that the end of the chain before it put in force (R264, R279). -/
theorem Wave.setE_applyEg (w : Wave) (d : SReg) (v : Word) :
    w.applyEg.setE d v = { w with egNext := none, gst := w.gstNow, sregs := sregsWith w d v w.egNow } := by
  rw [Wave.setE, Wave.setS_eq, Wave.applyEg_eg, Wave.applyEg_eq]
  rfl

@[simp] theorem Wave.applyEg_evpend (w : Wave) : w.applyEg.evpend = w.evpend := by rw [Wave.applyEg_eq]
@[simp] theorem Wave.applyEg_evmask (w : Wave) : w.applyEg.evmask = w.evmask := by rw [Wave.applyEg_eq]
@[simp] theorem Wave.applyEg_evovf (w : Wave) : w.applyEg.evovf = w.evovf := by rw [Wave.applyEg_eq]
@[simp] theorem Wave.applyEg_binds (w : Wave) : w.applyEg.binds = w.binds := by rw [Wave.applyEg_eq]
@[simp] theorem Wave.applyEg_count (w : Wave) (k : Nat) : w.applyEg.count k = w.count k := by
  rw [Wave.applyEg_eq, Wave.count, Wave.count]
@[simp] theorem Wave.applyEg_pollWord (w : Wave) : w.applyEg.pollWord = w.pollWord := by
  rw [Wave.applyEg_eq, Wave.pollWord, Wave.pollWord]

/-- The fragment that goes on is the one that the wave then holds under the executing number. -/
theorem Wave.moved_frag? {s : State} {c : Ctx} {w : Wave} (h : s.ctx? = some c) (hw : w.frags = c.w.frags) (pc : Word) :
    (w.moved c pc).frag? c.fid = some (c.f.moved pc) := by
  have hf : c.w.frags.getD c.fid none = some c.f := (ctx_cur h).2.1
  have lt : c.fid < c.w.frags.length := by
    by_contra hn
    rw [List.getD_eq_default _ _ (Nat.le_of_not_lt hn)] at hf
    cases hf
  simp [Wave.frag?, Wave.moved, hw, lt]

/-! ### EVMASK and EVPOLL (R181, R182) -/

/-- Bits put before others count as many times 2 to the number of those. -/
theorem toNat_append_add {m n : Nat} (x : BitVec m) (y : BitVec n) : (x ++ y).toNat = x.toNat * 2 ^ n + y.toNat := by
  rw [BitVec.toNat_append, ← Nat.shiftLeft_add_eq_or_of_lt y.isLt, Nat.shiftLeft_eq]

/-- The status word by its fields: the handle at bit 40, EVOVF at bit 32, the eligibility bits above the pending ones. -/
theorem Wave.pollWord_eq (w : Wave) : w.pollWord = BitVec.ofNat 64 (w.handle.toNat * 2 ^ 40
    + (if w.evovf then 2 ^ 32 else 0) + w.evmask.toNat * 65536 + w.evpend.toNat) := by
  apply BitVec.eq_of_toNat_eq
  have handle := w.handle.isLt
  have mask := w.evmask.isLt
  have pend := w.evpend.isLt
  rw [Wave.pollWord, BitVec.toNat_ofNat]
  simp only [toNat_append_add]
  cases w.evovf <;> simp <;> omega

theorem execEvmask_leaves {s : State} {c : Ctx} {d a : SReg} (h : Ready s c [d.toNat, a.toNat] []) :
    LeavesWave s c (execEvmask d a s) { c.w.closed with
      sregs := sregsWith c.w d (c.w.evmask.zeroExtend 64) c.w.egNow
      evmask := (c.w.s a).extractLsb' 0 16
      maskNew := (c.w.s a).extractLsb' 0 16 &&& ~~~c.w.evmask &&& ~~~c.w.evpend
      maskAt := (s.core (c.w.die * 48 + c.w.core)).cycle } c.following := by
  rw [LeavesWave, execEvmask, scalarOp_ready h, Ctx.next_eq, Ctx.ended_w, Wave.setE_applyEg, Wave.applyEg_s,
    Wave.applyEg_evmask, Wave.applyEg_evpend, Wave.applyEg_eq]
  rfl

theorem execEvpoll_leaves {s : State} {c : Ctx} {d : SReg} (h : Ready s c [d.toNat] []) :
    LeavesWave s c (execEvpoll d s) { c.w.closed with sregs := sregsWith c.w d c.w.pollWord c.w.egNow } c.following := by
  rw [LeavesWave, execEvpoll, scalarOp_ready h, Ctx.next_eq, Ctx.ended_w, Wave.setE_applyEg, Wave.applyEg_pollWord]
  rfl

/-! ### EVCLR (R181) -/

/-- The first n slots that a register names, cleared. -/
def Wave.clearSlots (w : Wave) (v : Word) (n : Nat) : Wave :=
  (List.range n).foldl (fun w k => if bit v k then w.clearSlot k else w) w

theorem Wave.clearSlots_succ (w : Wave) (v : Word) (n : Nat) : w.clearSlots v (n + 1) =
    if bit v n then (w.clearSlots v n).clearSlot n else w.clearSlots v n := by
  simp [Wave.clearSlots, List.range_succ]

/-- What no cleared slot changes, EVCLR leaves as it was. -/
theorem Wave.clearSlots_keeps {α : Type} (p : Wave → α) (h : ∀ w k, p (w.clearSlot k) = p w) (w : Wave) (v : Word)
    (n : Nat) : p (w.clearSlots v n) = p w := by
  induction n with
  | zero => rfl
  | succ n ih =>
    rw [Wave.clearSlots_succ]
    split
    · rw [h, ih]
    · exact ih

theorem Wave.clearSlot_count (w : Wave) (n k : Nat) : (w.clearSlot n).count k = if k = n then 0 else w.count k := by
  change (setAt w.counts n 0).getD k 0 = if k = n then 0 else w.counts.getD k 0
  rw [setAt_eq_set]
  obtain rfl | ne := eq_or_ne k n
  · obtain lt | ge := Nat.lt_or_ge k w.counts.length <;> simp [*]
  · simp [ne.symm, ne]

theorem Wave.clearSlot_evpend (w : Wave) (n : Nat) {k : Nat} (hk : k < 16) :
    (w.clearSlot n).evpend.getLsbD k = if k = n then false else w.evpend.getLsbD k := by
  change (w.evpend &&& ~~~BitVec.ofNat 16 (2 ^ n)).getLsbD k = _
  rw [BitVec.getLsbD_and, BitVec.getLsbD_not, BitVec.getLsbD_ofNat, Nat.testBit_two_pow]
  obtain rfl | ne := eq_or_ne k n
  · simp [hk]
  · simp [hk, ne, ne.symm]

/-- A reading of one slot that clearing the slot sets to x, and clearing another slot leaves, after the first n slots. -/
theorem Wave.clearSlots_slot {α : Type} {p : Wave → α} {x : α} {k : Nat}
    (h : ∀ w n, p (w.clearSlot n) = if k = n then x else p w) (w : Wave) (v : Word) (n : Nat) :
    p (w.clearSlots v n) = if k < n ∧ v.getLsbD k = true then x else p w := by
  induction n with
  | zero => simp [Wave.clearSlots]
  | succ n ih =>
    rw [Wave.clearSlots_succ, bit, apply_ite p, h, ih]
    obtain rfl | ne := eq_or_ne k n
    · simp
    · have : k < n + 1 ↔ k < n := by omega
      simp [ne, this]

/-- EVCLR takes from the pending bits those that its register names. -/
theorem Wave.clearSlots_evpend (w : Wave) (v : Word) :
    (w.clearSlots v 16).evpend = w.evpend &&& ~~~v.extractLsb' 0 16 := by
  apply BitVec.eq_of_getLsbD_eq
  intro k hk
  rw [Wave.clearSlots_slot (p := fun w => w.evpend.getLsbD k) (fun w n => w.clearSlot_evpend n hk)]
  cases h : v.getLsbD k <;> simp [h, hk]

/-- EVCLR sets to 0 the counters that its register names. -/
theorem Wave.clearSlots_count (w : Wave) (v : Word) {k : Nat} (hk : k < 16) :
    (w.clearSlots v 16).count k = if v.getLsbD k then 0 else w.count k := by
  rw [Wave.clearSlots_slot (p := fun w => w.count k) (fun w n => w.clearSlot_count n k)]
  simp [hk]

theorem execEvclr_ready {s : State} {c : Ctx} {a : SReg} (h : Ready s c [a.toNat] []) :
    execEvclr a s = .next (s.setWave c.wid ({ c.w.applyEg.clearSlots (c.w.s a) 16 with
      evovf := c.w.evovf && !(c.w.s a).getLsbD 16 }.closed.moved c c.following)) := by
  rw [execEvclr, scalarOp_ready h, Ctx.next_eq, Ctx.ended_w, Wave.applyEg_s]
  have overflow : (c.w.applyEg.clearSlots (c.w.s a) 16).evovf = c.w.evovf := by
    rw [Wave.clearSlots_keeps Wave.evovf fun _ _ => rfl, Wave.applyEg_evovf]
  rw [← overflow]
  rfl

theorem execEvclr_clears {s : State} {c : Ctx} {a : SReg} (h : Ready s c [a.toNat] []) :
    NextWith (execEvclr a s) fun t => WaveIs t c.wid fun w =>
      w.frag? c.fid = some (c.f.moved c.following) ∧ w.sregs = c.w.sregs
      ∧ w.evpend = c.w.evpend &&& ~~~(c.w.s a).extractLsb' 0 16
      ∧ w.evovf = (c.w.evovf && !(c.w.s a).getLsbD 16)
      ∧ w.binds = c.w.binds
      ∧ ∀ k < 16, w.counts.getD k 0 = if (c.w.s a).getLsbD k then 0 else c.w.counts.getD k 0 := by
  have kept {α : Type} (p : Wave → α) (hp : ∀ w k, p (w.clearSlot k) = p w) :=
    Wave.clearSlots_keeps p hp c.w.applyEg (c.w.s a) 16
  refine ⟨_, execEvclr_ready h, _, TabOps.find?_put_same _ _ _, ?_, ?_, ?_, rfl, ?_, fun k hk => ?_⟩
  · exact Wave.moved_frag? h.runs ((kept Wave.frags fun _ _ => rfl).trans c.w.applyEg_frags) _
  · exact (kept Wave.sregs fun _ _ => rfl).trans c.w.applyEg_sregs
  · exact (Wave.clearSlots_evpend _ _).trans (by rw [Wave.applyEg_evpend])
  · exact (kept Wave.binds fun _ _ => rfl).trans c.w.applyEg_binds
  · exact (Wave.clearSlots_count _ _ hk).trans (by rw [Wave.applyEg_count, Wave.count])

/-! ### The decoder (R90) -/

/-- An EVT word of operations 5 to 7 with another index than 0 is no instruction. -/
theorem decodeEvt_index {w : BitVec 32} (op : 5 ≤ (w.extractLsb' 4 3).toNat) (index : w.extractLsb' 0 4 ≠ 0) :
    decodeEvt w = .error .nonzero := by
  replace index : w.extractLsb' 0 4 ≠ 0#4 := index
  have lt : (w.extractLsb' 4 3).toNat < 8 := BitVec.isLt _
  have : (w.extractLsb' 4 3).toNat = 5 ∨ (w.extractLsb' 4 3).toNat = 6 ∨ (w.extractLsb' 4 3).toNat = 7 := by omega
  obtain h | h | h := this <;> simp [decodeEvt, h, need, index]

/-- Bits [31:25] of a scalar word of major 0x1F name the EVT group. -/
theorem decode_evt {w : BitVec 32} (group : w.extractLsb' 25 7 = 95) : decode (.word w) = checked (decodeEvt w) := by
  have scalar : w.getLsbD 31 = true := by
    simpa using congrArg (fun x : BitVec 7 => x.getLsbD 6) group
  have major : fMajor w = 0x1F := by
    have group : (w.extractLsb' 25 7).toNat = 95 := congrArg BitVec.toNat group
    simp only [fMajor, BitVec.extractLsb'_toNat, Nat.shiftRight_eq_div_pow] at group ⊢
    omega
  simp [decode, decodeWord, scalar, decodeScalar, major]

section
variable (s : State) (d a : SReg)

theorem exec_evmask : exec (.evmask d a) s = execEvmask d a s := rfl
theorem exec_evpoll : exec (.evpoll d) s = execEvpoll d s := rfl
theorem exec_evclr : exec (.evclr a) s = execEvclr a s := rfl

end

/-- Settles O34: the rule of each of the three instructions, and the decoder's check of the index. -/
theorem eventRegisters : Obligations.EventRegisters := by
  unfold Obligations.EventRegisters
  refine ⟨fun s c d a => ⟨fun h => ?_, fun h => ?_, fun h => ?_⟩, fun w group op index i => ?_, ?_, ?_, ?_⟩
  · rw [exec_evmask]
    exact execEvmask_leaves h
  · rw [exec_evpoll, ← Wave.pollWord_eq]
    exact execEvpoll_leaves h
  · rw [exec_evclr]
    exact execEvclr_clears h
  · rw [decode_evt group, decodeEvt_index op index]
    simp [checked]
  all_goals decide +kernel

end Sys2Proof.Machine
end
